-- ==== Sys2Proof/Word.lean ====
section
/-! DEFINITION. The widths of SFC (00_scope.md R12): wire bytes are 8 bits, counters 16, registers and command words 32. -/

namespace Sys2Proof

/-- One byte of the serial line or of a buffer (00_scope.md R12). -/
abbrev Byte := BitVec 8

/-- A deadline, a length or an index, and the host's byte address (00_scope.md R12, 20_memory.md R70). -/
abbrev Half := BitVec 16

/-- A host register or a command word (00_scope.md R12). -/
abbrev Word := BitVec 32

end Sys2Proof
end

