-- ==== Sys2Proof/Syntax.lean ====
section
/-! DEFINITION. The 13 commands of SFC v1 as syntax (00_scope.md R3, 30_encoding.md R91), with the fields each one uses. -/

namespace Sys2Proof

/-- PSEL, the profile a generic or codec command uses (30_encoding.md R93). -/
inductive ProfileSel where
  | p0
  | p1
  deriving DecidableEq, Repr

/-- SHAPE, the reply shape (30_encoding.md R94). `noReply` is the spec's NONE. -/
inductive Shape where
  | fixed
  | sentinel
  | lenpfx
  | noReply
  deriving DecidableEq, Repr

/-- A command: one constructor per row of the opcode map (30_encoding.md R91), with the fields that row lists as used.
Fields a command ignores (R97) are no part of it. -/
inductive Instr where
  /-- QUERY_INV (42_vending.md R203). -/
  | queryInv
  /-- HAS_SODA, ARG = slot (42_vending.md R206). -/
  | hasSoda (slot : Byte)
  /-- AWAIT_BUTTON, ARG = seconds (42_vending.md R208). -/
  | awaitButton (secs : Byte)
  /-- VEND, ARG = slot (42_vending.md R212). -/
  | vend (slot : Byte)
  /-- READER_ENABLE, ARG = template argument (43_stripe.md R232). -/
  | readerEnable (arg : Byte)
  /-- READER_DISABLE, ARG = template argument (43_stripe.md R233). -/
  | readerDisable (arg : Byte)
  /-- SET_LED, ARG = colour (43_stripe.md R234). -/
  | setLed (colour : Byte)
  /-- SET_TRACKS, ARG = track selection (43_stripe.md R235). -/
  | setTracks (sel : Byte)
  /-- AWAIT_SWIPE (43_stripe.md R236). -/
  | awaitSwipe
  /-- EXCHANGE, PSEL, SHAPE and LEN (41_exchange.md R184). -/
  | exchange (psel : ProfileSel) (shape : Shape) (len : Byte)
  /-- ENCODE, PSEL (40_codec.md R142). -/
  | encode (psel : ProfileSel)
  /-- DECODE, PSEL, SHAPE and LEN (40_codec.md R143). -/
  | decode (psel : ProfileSel) (shape : Shape) (len : Byte)
  /-- CKSUM, PSEL (40_codec.md R141). -/
  | cksum (psel : ProfileSel)
  deriving DecidableEq, Repr

end Sys2Proof
end

