-- ==== Sys2Proof/WellFormed.lean ====
section
/-! DEFINITION. Well-formed commands: LEN has a meaning for SHAPE = FIXED only (30_encoding.md R95), so a well-formed command
carries LEN = 0 for every other shape, as the assembler writes it (R106). An out-of-range argument (slot 8, seconds 0) is
NOT ill-formed: it is a legal command that finishes INVALID_ARGUMENT (R98). -/

namespace Sys2Proof

/-- LEN is 0 where the shape ignores it (30_encoding.md R95, R106). -/
def lenCanonical (shape : Shape) (len : Byte) : Bool :=
  match shape with
  | .fixed => true
  | .sentinel => len == 0
  | .lenpfx => len == 0
  | .noReply => len == 0

/-- The well-formedness check of a command. -/
def Instr.wf : Instr → Bool
  | .queryInv => true
  | .hasSoda _ => true
  | .awaitButton _ => true
  | .vend _ => true
  | .readerEnable _ => true
  | .readerDisable _ => true
  | .setLed _ => true
  | .setTracks _ => true
  | .awaitSwipe => true
  | .exchange _ shape len => lenCanonical shape len
  | .encode _ => true
  | .decode _ shape len => lenCanonical shape len
  | .cksum _ => true

/-- A command in the assembler's canonical form. -/
abbrev Instr.WellFormed (i : Instr) : Prop := i.wf = true

end Sys2Proof
end

