-- ==== Sys2Proof/Decode.lean ====
section
/-! DEFINITION. The command word (30_encoding.md R90): a total decoder that rejects by name, and the encoder, both from the
opcode map (R91) and the field table (R90). -/

namespace Sys2Proof

/-- OP, bits [7:0] (30_encoding.md R90). -/
def Field.op (w : Word) : Byte := w.extractLsb' 0 8

/-- ARG, bits [15:8] (30_encoding.md R90). -/
def Field.arg (w : Word) : Byte := w.extractLsb' 8 8

/-- PSEL, bit [16]: 0 = P0, 1 = P1 (30_encoding.md R90, R93). -/
def Field.psel (w : Word) : ProfileSel := if w.extractLsb' 16 1 = 1#1 then .p1 else .p0

/-- SHAPE, bits [18:17] (30_encoding.md R94). -/
def Field.shape (w : Word) : Shape :=
  match w.extractLsb' 17 2 with
  | 0#2 => .fixed
  | 1#2 => .sentinel
  | 2#2 => .lenpfx
  | _ => .noReply

/-- LEN, bits [31:24], of a command whose shape reads it; 0 for a shape that ignores it (30_encoding.md R95, R97). -/
def Field.len (w : Word) : Byte :=
  match Field.shape w with
  | .fixed => w.extractLsb' 24 8
  | .sentinel => 0
  | .lenpfx => 0
  | .noReply => 0

/-- Why a command word is no command. -/
inductive DecodeError where
  /-- OP is not in the opcode map (30_encoding.md R98). -/
  | badOpcode (op : Byte)
  deriving DecidableEq, Repr

/-- The command of a word, by OP alone (30_encoding.md R91, R99); fields the command ignores are dropped (R97). -/
def decodeWord (w : Word) : Except DecodeError Instr :=
  match Field.op w with
  | 0x01#8 => .ok .queryInv
  | 0x02#8 => .ok (.hasSoda (Field.arg w))
  | 0x03#8 => .ok (.awaitButton (Field.arg w))
  | 0x04#8 => .ok (.vend (Field.arg w))
  | 0x10#8 => .ok (.readerEnable (Field.arg w))
  | 0x11#8 => .ok (.readerDisable (Field.arg w))
  | 0x12#8 => .ok (.setLed (Field.arg w))
  | 0x13#8 => .ok (.setTracks (Field.arg w))
  | 0x14#8 => .ok .awaitSwipe
  | 0x20#8 => .ok (.exchange (Field.psel w) (Field.shape w) (Field.len w))
  | 0x21#8 => .ok (.encode (Field.psel w))
  | 0x22#8 => .ok (.decode (Field.psel w) (Field.shape w) (Field.len w))
  | 0x23#8 => .ok (.cksum (Field.psel w))
  | op => .error (.badOpcode op)

/-- The command a word stands for, none for a word whose OP is reserved. -/
def commandOf (w : Word) : Option Instr :=
  match decodeWord w with
  | .ok i => some i
  | .error _ => none

/-- What the decoder reads from a row's word, its bits above `nbits` zero. A command word is one 32-bit bus write
(30_encoding.md R99), so it has no byte order (20_memory.md R80). -/
def decodeTableWord (nbits w : Nat) : Option Instr :=
  commandOf (BitVec.ofNat 32 (w % 2 ^ nbits))

/-- The opcode map's OP column (30_encoding.md R91). -/
def Instr.opcode : Instr → Byte
  | .queryInv => 0x01
  | .hasSoda _ => 0x02
  | .awaitButton _ => 0x03
  | .vend _ => 0x04
  | .readerEnable _ => 0x10
  | .readerDisable _ => 0x11
  | .setLed _ => 0x12
  | .setTracks _ => 0x13
  | .awaitSwipe => 0x14
  | .exchange _ _ _ => 0x20
  | .encode _ => 0x21
  | .decode _ _ _ => 0x22
  | .cksum _ => 0x23

/-- PSEL's bit (30_encoding.md R93). -/
def ProfileSel.code : ProfileSel → BitVec 1
  | .p0 => 0
  | .p1 => 1

/-- SHAPE's two bits (30_encoding.md R94). -/
def Shape.code : Shape → BitVec 2
  | .fixed => 0
  | .sentinel => 1
  | .lenpfx => 2
  | .noReply => 3

/-- The word of R90 with the given fields, bits [23:19] zero. -/
def assemble (op arg : Byte) (psel : BitVec 1) (shape : BitVec 2) (len : Byte) : Word :=
  len ++ 0#5 ++ shape ++ psel ++ arg ++ op

/-- The assembler's word of a command, unnamed fields 0 (30_encoding.md R106). -/
def encode (i : Instr) : Word :=
  match i with
  | .queryInv => assemble i.opcode 0 0 0 0
  | .hasSoda slot => assemble i.opcode slot 0 0 0
  | .awaitButton secs => assemble i.opcode secs 0 0 0
  | .vend slot => assemble i.opcode slot 0 0 0
  | .readerEnable arg => assemble i.opcode arg 0 0 0
  | .readerDisable arg => assemble i.opcode arg 0 0 0
  | .setLed colour => assemble i.opcode colour 0 0 0
  | .setTracks sel => assemble i.opcode sel 0 0 0
  | .awaitSwipe => assemble i.opcode 0 0 0 0
  | .exchange psel shape len => assemble i.opcode 0 psel.code shape.code len
  | .encode psel => assemble i.opcode 0 psel.code 0 0
  | .decode psel shape len => assemble i.opcode 0 psel.code shape.code len
  | .cksum psel => assemble i.opcode 0 psel.code 0 0

end Sys2Proof
end

