-- ==== Sys2Proof/Config.lean ====
section
/-! DEFINITION. What an instance of SFC fixes (the OPEN parameters PMAX and STRIPE_TEMPLATE, 00_scope.md R8 and R10), and the
ports through which the environment drives one clock cycle (10_state.md R24), with the free inputs of a cycle for which
none are listed. Nothing here with the word opaque has a body: no proof can see its value. -/

namespace Sys2Proof

/-- A free number, from which PMAX is made. DESIGN CHOICE (log entry 3): the spec's parameter as a constant with no body. Safe. -/
opaque Config.pmaxSeed : Nat

/-- PMAX, the payload buffer depth, any number with 8 ≤ PMAX ≤ 509 (00_scope.md R8). -/
def Config.pmax : Nat := Config.pmaxSeed % 502 + 8

/-- FBUF_DEPTH = 2*PMAX + 5 (00_scope.md R9). -/
def Config.fbufDepth : Nat := 2 * Config.pmax + 5

/-- A free function, from which STRIPE_TEMPLATE is made. DESIGN CHOICE (log entry 3). Safe. -/
opaque Config.stripeTemplateSeed : Byte → Byte → Option (List Byte)

/-- STRIPE_TEMPLATE(OP, ARG): none, or a byte list of length at most PMAX (00_scope.md R10). Every such function is reached,
since a list within the bound is left as it is. -/
def Config.stripeTemplate (op arg : Byte) : Option (List Byte) :=
  (Config.stripeTemplateSeed op arg).map (fun payload => payload.take Config.pmax)

/-- The host's access in one cycle: at most one, a 32-bit word at a 16-bit byte address (10_state.md R23). -/
inductive BusAccess where
  | idle
  | read (addr : Half)
  | write (addr : Half) (wdata : Word)
  deriving DecidableEq, Repr, Inhabited

/-- The inputs of one cycle (10_state.md R24). `rx` is `some b` when rx_valid = 1 and rx_byte = b. -/
structure Inputs where
  rst     : Bool
  bus     : BusAccess
  rx      : Option Byte
  txReady : Bool
  txErr   : Bool
  tick    : Bool
  deriving DecidableEq, Repr, Inhabited

/-- The outputs of one cycle (10_state.md R25), with the byte that passed to the UART in it, if one did. `rdata` is the value a
read returned, `none` in a cycle without a read. -/
structure Outputs where
  txValid : Bool
  txByte  : Byte
  irq     : Bool
  rdata   : Option Word
  sent    : Option Byte
  deriving DecidableEq, Repr

/-- The free inputs of a cycle for which the state lists none: any value (93_implementation_defined.md E1 to E5).
DESIGN CHOICE (log entry 1). Safe. -/
opaque Config.envInput : Nat → Inputs

end Sys2Proof
end

