-- ==== Sys2Proof/Machine/State.lean ====
section
/-! DEFINITION. The whole state of SFC (10_state.md R20), as plain data, and the state after reset (R52). -/

namespace Sys2Proof.Machine

/-- STATUS.STATE (10_state.md R30). The value 7 is never entered, so it is no constructor. -/
inductive XState where
  | idle
  | commandSent
  | awaitingReply
  | repliedOk
  | repliedError
  | timedOut
  | fatal
  deriving DecidableEq, Repr

/-- RESULT.CLASS (60_exceptions.md R250). `noResult` is the spec's NONE. -/
inductive ResultClass where
  | noResult
  | ok
  | timedOut
  | malformed
  | invalidArgument
  | ioFailure
  | negative
  deriving DecidableEq, Repr

/-- RESULT.ERR (60_exceptions.md R251). `noError` is the spec's NONE. -/
inductive ErrCode where
  | noError
  | checksumMismatch
  | unterminatedFrame
  | unexpectedLength
  | headerMismatch
  | badEscape
  | unexpectedReply
  | badOpcode
  | badArgument
  | badProfile
  | termCollision
  | shortWrite
  | txError
  deriving DecidableEq, Repr

/-- A profile: the tuple of 10_state.md R36, the stored bits of Pn_FRAME and Pn_CODE. -/
structure Profile where
  hdrLen : BitVec 2
  ckEn   : Bool
  termEn : Bool
  escEn  : Bool
  hdr0   : Byte
  hdr1   : Byte
  term   : Byte
  seed   : Byte
  esc    : Byte
  mask   : Byte
  deriving DecidableEq, Repr

/-- A byte buffer: index and byte, indices strictly rising, no byte 0x00 listed (an unlisted index holds 0x00, the reset
contents of 10_state.md R52). -/
abbrev Memory := List Host.Cell

/-- The state of SFC (10_state.md R20), and below it the model's own three fields for the ports of a cycle. -/
structure State where
  /-- STATUS.STATE (R30). -/
  xstate       : XState
  /-- STATUS.DONE (60_exceptions.md R256). -/
  done         : Bool
  /-- STATUS.PHASE (42_vending.md R214): true is phase 1. -/
  phase        : Bool
  /-- STATUS.RX_DROP, sticky (R31). -/
  rxDrop       : Bool
  /-- STATUS.CMD_REJ, sticky (R31). -/
  cmdRej       : Bool
  /-- STATUS.BUS_ERR, sticky (R31). -/
  busErr       : Bool
  /-- STATUS.WR_REJ, sticky (R31). -/
  wrRej        : Bool
  /-- CMD, the last accepted command word, every bit kept (R33). -/
  cmd          : Word
  /-- RESULT.CLASS (R34). -/
  resClass     : ResultClass
  /-- RESULT.ERR (R34). -/
  resErr       : ErrCode
  /-- RESULT.VALUE (R34). -/
  resValue     : Byte
  /-- CFG.IE (R35). -/
  ie           : Bool
  /-- CFG.SWIPE_FRAMED (R35). -/
  swipeFramed  : Bool
  /-- CFG.SLOT_ASCII (R35). -/
  slotAscii    : Bool
  /-- REPLY_TIMEOUT (R40). -/
  replyTimeout : Half
  /-- SETTLE (R41). -/
  settle       : Half
  /-- TXLEN (R42). -/
  txlen        : Half
  /-- RXLEN (R43). -/
  rxlen        : Half
  /-- FLEN (R44). -/
  flen         : Half
  /-- DL_CNT, the deadline counter (R50). -/
  dlCnt        : Half
  /-- TX_IDX, the transmit index (R50). -/
  txIdx        : Half
  /-- SWIPE_DISC (R46). -/
  swipeDisc    : Half
  /-- P0_FRAME and P0_CODE (R36, R37). -/
  p0           : Profile
  /-- P1_FRAME and P1_CODE (R36, R38). -/
  p1           : Profile
  /-- PBUF_TX (R47). -/
  pbufTx       : Memory
  /-- PBUF_RX (R48). -/
  pbufRx       : Memory
  /-- FBUF (R49). -/
  fbuf         : Memory
  /-- The model's own: the inputs of the coming cycles, the next one first. DESIGN CHOICE (log entry 1). -/
  inputs       : List Inputs
  /-- The model's own: which free input a cycle takes when `inputs` is empty. DESIGN CHOICE (log entry 1). -/
  cycle        : Nat
  /-- The model's own: the outputs of the cycle just run (R25). DESIGN CHOICE (log entry 2). -/
  out          : Outputs
  deriving DecidableEq, Repr

/-- Nothing stops SFC: it takes no traps (60_exceptions.md) and has no undefined behaviour (R265), so no step faults. An error ends
a command through `finish`, which is a next state. -/
inductive Fault where
  deriving DecidableEq, Repr

/-- Why a command has no meaning in the model. -/
inductive Refusal where
  /-- A command the model does not give its meaning yet. No arm of exec raises it. Safe: the run stops. -/
  | notModelled (mnemonic : String)
  deriving DecidableEq, Repr

/-- P0 after reset: P0_FRAME = 0x00000000, P0_CODE = 0x00201000 (10_state.md R37). -/
def Profile.resetP0 : Profile where
  hdrLen := 0
  ckEn := false
  termEn := false
  escEn := false
  hdr0 := 0x00
  hdr1 := 0x00
  term := 0x00
  seed := 0x00
  esc := 0x10
  mask := 0x20

/-- P1 after reset: P1_FRAME = 0x0300600E, P1_CODE = 0x00201060 (10_state.md R38). -/
def Profile.resetP1 : Profile where
  hdrLen := 2
  ckEn := true
  termEn := true
  escEn := false
  hdr0 := 0x60
  hdr1 := 0x00
  term := 0x03
  seed := 0x60
  esc := 0x10
  mask := 0x20

/-- SFC after a reset cycle (10_state.md R52). -/
def State.reset : State where
  xstate := .idle
  done := false
  phase := false
  rxDrop := false
  cmdRej := false
  busErr := false
  wrRej := false
  cmd := 0
  resClass := .noResult
  resErr := .noError
  resValue := 0
  ie := false
  swipeFramed := false
  slotAscii := false
  replyTimeout := 0x03E8
  settle := 0x0064
  txlen := 0
  rxlen := 0
  flen := 0
  dlCnt := 0
  txIdx := 0
  swipeDisc := 0
  p0 := Profile.resetP0
  p1 := Profile.resetP1
  pbufTx := []
  pbufRx := []
  fbuf := []
  inputs := []
  cycle := 0
  out :=
    { txValid := false, txByte := 0, irq := false, rdata := none, sent := none }

end Sys2Proof.Machine
end

