-- ==== Sys2Proof/Machine/Ops.lean ====
section
/-! DEFINITION. The named operations over the buffers and the registers: reading and storing bytes, accepting a command, and
`finish`, the ONE operation that ends a command and records its outcome (41_exchange.md R172), which is SFC's trap entry
(60_exceptions.md R255); beside it `acknowledge`, the return (R260). -/

namespace Sys2Proof.Machine

/-- The byte at an index; an index not listed holds 0x00 (10_state.md R52). -/
def Memory.read : Memory → Nat → Byte
  | [], _ => 0
  | (k, v) :: rest, a => if k = a then v else Memory.read rest a

/-- Store one byte, keeping the canonical form: rising indices, no 0x00 listed. -/
def Memory.write : Memory → Nat → Byte → Memory
  | [], a, b => if b = 0 then [] else [(a, b)]
  | (k, v) :: rest, a, b =>
    if a < k then (if b = 0 then (k, v) :: rest else (a, b) :: (k, v) :: rest)
    else if a = k then (if b = 0 then rest else (a, b) :: rest)
    else (k, v) :: Memory.write rest a b

/-- Store a byte list from an index on, its first byte at the index (20_memory.md R79). -/
def Memory.store : Memory → Nat → List Byte → Memory
  | m, _, [] => m
  | m, a, b :: bs => Memory.store (Memory.write m a b) (a + 1) bs

/-- The byte list m[0..n) (00_scope.md R14). -/
def Memory.load (m : Memory) (n : Nat) : List Byte := (List.range n).map m.read

/-- The canonical form of a buffer: indices strictly rising, no byte 0x00 listed. -/
def Memory.wf : Memory → Bool
  | [] => true
  | (k, v) :: rest => v != 0 && rest.all (fun c => decide (k < c.1)) && Memory.wf rest

/-- Every listed index lies below the buffer's depth. -/
def Memory.below (m : Memory) (depth : Nat) : Bool := m.all (fun c => decide (c.1 < depth))

/-- STATUS.BUSY (41_exchange.md R161). -/
def State.busy (s : State) : Bool :=
  match s.xstate with
  | .commandSent => true
  | .awaitingReply => true
  | .idle => false
  | .repliedOk => false
  | .repliedError => false
  | .timedOut => false
  | .fatal => false

/-- The command in CMD; none when CMD holds a reserved OP (10_state.md R33, 30_encoding.md R98). -/
def State.command (s : State) : Option Instr := commandOf s.cmd

/-- FBUF[0..FLEN) (10_state.md R44). -/
def State.frameBytes (s : State) : List Byte := s.fbuf.load s.flen.toNat

/-- PBUF_TX[0..TXLEN), the host's payload (10_state.md R47). -/
def State.txPayload (s : State) : List Byte := s.pbufTx.load s.txlen.toNat

/-- CMD <- v, every bit kept (10_state.md R33). -/
def latchCommand (v : Word) (s : State) : State := { s with cmd := v }

/-- What accepting a command clears: RESULT, RXLEN, DONE and PHASE (41_exchange.md R163). -/
def accept (s : State) : State :=
  { s with
    resClass := .noResult
    resErr := .noError
    resValue := 0
    rxlen := 0
    done := false
    phase := false }

/-- The codec commands, which end in IDLE whatever their class (41_exchange.md R170). -/
def isCodec : Instr → Bool
  | .queryInv => false
  | .hasSoda _ => false
  | .awaitButton _ => false
  | .vend _ => false
  | .readerEnable _ => false
  | .readerDisable _ => false
  | .setLed _ => false
  | .setTracks _ => false
  | .awaitSwipe => false
  | .exchange _ _ _ => false
  | .encode _ => true
  | .decode _ _ _ => true
  | .cksum _ => true

/-- The state a class ends in, for a command that is no codec command (41_exchange.md R170). No command finishes with class NONE
(60_exceptions.md R250). -/
def classState : ResultClass → XState
  | .noResult => .idle
  | .ok => .repliedOk
  | .timedOut => .timedOut
  | .malformed => .repliedError
  | .invalidArgument => .idle
  | .ioFailure => .fatal
  | .negative => .repliedError

/-- TerminalState(class, OP) (41_exchange.md R170); `none` is a reserved OP. -/
def terminalState (cls : ResultClass) (c : Option Instr) : XState :=
  match c with
  | some i => if isCodec i then .idle else classState cls
  | none => classState cls

/-- FailValue(OP) of a command: 3 (ERROR) for VEND, else 0 (41_exchange.md R171). -/
def commandFailValue : Instr → Byte
  | .queryInv => 0
  | .hasSoda _ => 0
  | .awaitButton _ => 0
  | .vend _ => 3
  | .readerEnable _ => 0
  | .readerDisable _ => 0
  | .setLed _ => 0
  | .setTracks _ => 0
  | .awaitSwipe => 0
  | .exchange _ _ _ => 0
  | .encode _ => 0
  | .decode _ _ _ => 0
  | .cksum _ => 0

/-- FailValue(OP) (41_exchange.md R171); a reserved OP is "every other command". -/
def failValue (c : Option Instr) : Byte :=
  match c with
  | some i => commandFailValue i
  | none => 0

/-- Finish(class, err, value[, P]) (41_exchange.md R172): the outcome goes to RESULT, a payload to PBUF_RX and RXLEN, STATE becomes the
terminal state and DONE is set. PBUF_RX past the payload keeps its bytes. -/
def finish (c : Option Instr) (cls : ResultClass) (err : ErrCode) (value : Byte) (payload : Option (List Byte))
    (s : State) : State :=
  { s with
    resClass := cls
    resErr := err
    resValue := value
    pbufRx := match payload with
      | some bytes => s.pbufRx.store 0 bytes
      | none => s.pbufRx
    rxlen := match payload with
      | some bytes => BitVec.ofNat 16 bytes.length
      | none => 0
    xstate := terminalState cls c
    done := true }

/-- CTRL.DONECLR, the acknowledgement of a result: DONE is cleared and nothing is restored (10_state.md R32, 60_exceptions.md
R256, R260). -/
def acknowledge (s : State) : State := { s with done := false }

/-- Append a received byte: FBUF[FLEN] <- b, FLEN <- FLEN + 1 (41_exchange.md R179, 43_stripe.md R237). -/
def appendByte (b : Byte) (s : State) : State :=
  { s with fbuf := s.fbuf.write s.flen.toNat b, flen := s.flen + 1 }

/-- Send frame F: it is copied to FBUF from index 0, and the transmission starts, bounded by REPLY_TIMEOUT
(41_exchange.md R166). -/
def sendFrame (frame : List Byte) (ph : Bool) (s : State) : State :=
  { s with
    fbuf := s.fbuf.store 0 frame
    flen := BitVec.ofNat 16 frame.length
    txIdx := 0
    dlCnt := s.replyTimeout
    phase := ph
    xstate := .commandSent }

/-- StartListen (41_exchange.md R168): nothing is sent. -/
def startListen (s : State) : State :=
  { s with flen := 0, txIdx := 0, dlCnt := s.replyTimeout, phase := false, xstate := .awaitingReply }

/-- The first failing check of a list, in order (41_exchange.md R164). -/
def firstFailure : List (Bool × ErrCode) → Option ErrCode
  | [] => none
  | (fails, code) :: rest => if fails then some code else firstFailure rest

/-- Issue an accepted command (41_exchange.md R163): clear the old outcome, then either the first failing check ends the command
INVALID_ARGUMENT with its code, or the command starts. -/
def issue (i : Instr) (checks : List (Bool × ErrCode)) (start : State → State) (s : State) : State :=
  match firstFailure checks with
  | some code => finish (some i) .invalidArgument code (commandFailValue i) none (accept s)
  | none => start (accept s)

end Sys2Proof.Machine
end

