-- ==== Sys2Proof/Machine/Codec.lean ====
section
/-! DEFINITION. The frame codec's pure functions (40_codec.md): checksum, stuffing, framer, delimiter, validator. A profile is as in
10_state.md R36. -/

namespace Sys2Proof.Machine

/-- p.H, the header bytes (10_state.md R36). HDR_LEN = 3 makes the profile invalid (R39), so no frame is made with it: its
header here is a DESIGN CHOICE (log entry 4). -/
def Profile.header (p : Profile) : List Byte :=
  if p.hdrLen = 0 then [] else if p.hdrLen = 1 then [p.hdr0] else [p.hdr0, p.hdr1]

/-- p.CKLEN (10_state.md R36). -/
def Profile.ckLen (p : Profile) : Nat := if p.ckEn then 1 else 0

/-- p.TERMLEN (10_state.md R36). -/
def Profile.termLen (p : Profile) : Nat := if p.termEn then 1 else 0

/-- ProfileValid(p) (10_state.md R39), its three conditions in order. -/
def Profile.valid (p : Profile) : Bool :=
  decide (p.hdrLen ≤ 2)
    && (!p.escEn || p.termEn)
    && (!p.escEn || (p.esc != p.term && p.mask != 0 && p.mask != (p.esc ^^^ p.term)))

/-- xorfold(seed, L) (00_scope.md R14). -/
def xorfold (seed : Byte) (bytes : List Byte) : Byte := bytes.foldl (fun acc b => acc ^^^ b) seed

/-- Checksum(p, P): the seeded XOR of the payload bytes only (40_codec.md R121). -/
def checksum (p : Profile) (payload : List Byte) : Byte := xorfold p.seed payload

/-- One byte of Stuff: TERM and ESC become a pair (40_codec.md R124). -/
def stuffByte (p : Profile) (b : Byte) : List Byte :=
  if b = p.term ∨ b = p.esc then [p.esc, b ^^^ p.mask] else [b]

/-- Stuff(p, L) (40_codec.md R124). -/
def stuff (p : Profile) (bytes : List Byte) : List Byte :=
  if p.escEn then bytes.flatMap (stuffByte p) else bytes

/-- Unstuff with escaping on (40_codec.md R125). -/
def unstuffEsc (p : Profile) : List Byte → Except ErrCode (List Byte)
  | [] => .ok []
  | [x] => if x = p.esc ∨ x = p.term then .error .badEscape else .ok [x]
  | x :: y :: rest =>
    if x = p.esc then
      if y ^^^ p.mask ≠ p.term ∧ y ^^^ p.mask ≠ p.esc then .error .badEscape
      else
        match unstuffEsc p rest with
        | .ok out => .ok ((y ^^^ p.mask) :: out)
        | .error e => .error e
    else if x = p.term then .error .badEscape
    else
      match unstuffEsc p (y :: rest) with
      | .ok out => .ok (x :: out)
      | .error e => .error e

/-- Unstuff(p, L) (40_codec.md R125). -/
def unstuff (p : Profile) (bytes : List Byte) : Except ErrCode (List Byte) :=
  if p.escEn then unstuffEsc p bytes else .ok bytes

/-- The checksum part C of a frame (40_codec.md R127). -/
def checkBytes (p : Profile) (payload : List Byte) : List Byte :=
  if p.ckEn then [checksum p payload] else []

/-- The terminator part T of a frame (40_codec.md R127). -/
def termBytes (p : Profile) : List Byte := if p.termEn then [p.term] else []

/-- Encode(p, P): the frame, or TERM_COLLISION (40_codec.md R127, R128). -/
def encodeFrame (p : Profile) (payload : List Byte) : Except ErrCode (List Byte) :=
  if p.termEn && !p.escEn && (payload ++ checkBytes p payload).contains p.term then .error .termCollision
  else .ok (p.header ++ stuff p (payload ++ checkBytes p payload) ++ termBytes p)

/-- MinTermIdx(p) (40_codec.md R130). -/
def Profile.minTermIdx (p : Profile) : Nat := p.header.length + p.ckLen

/-- ExpLen(p, FIXED, n) (40_codec.md R132). -/
def Profile.expLen (p : Profile) (n : Nat) : Nat := p.header.length + n + p.ckLen

/-- FrameComplete(p, shape, n, B) (40_codec.md R133). -/
def frameComplete (p : Profile) (shape : Shape) (n : Nat) (bytes : List Byte) : Bool :=
  if p.termEn then
    bytes.getLast? == some p.term && decide (p.minTermIdx < bytes.length)
  else
    match shape with
    | .fixed => bytes.length == p.expLen n
    | .lenpfx =>
      match bytes[p.header.length]? with
      | some k => bytes.length == p.header.length + 1 + k.toNat + p.ckLen
      | none => false
    | .sentinel => false
    | .noReply => false

/-- The length checks that end Decode (40_codec.md R136): PMAX, then the shape (R134, R135). -/
def checkPayload (shape : Shape) (n : Nat) (payload : List Byte) : Except ErrCode (List Byte) :=
  if Config.pmax < payload.length then .error .unexpectedLength
  else
    match shape with
    | .fixed => if payload.length = n then .ok payload else .error .unexpectedLength
    | .lenpfx =>
      match payload with
      | [] => .error .unexpectedLength
      | k :: rest => if k.toNat = rest.length then .ok payload else .error .unexpectedLength
    | .sentinel => .ok payload
    | .noReply => .ok payload

/-- The checksum step of Decode (40_codec.md R136): the body without its last byte, if that byte is the right checksum (R122). -/
def checkBody (p : Profile) (body : List Byte) : Except ErrCode (List Byte) :=
  if p.ckEn then
    match body.getLast? with
    | none => .error .unexpectedLength
    | some c => if c = checksum p body.dropLast then .ok body.dropLast else .error .checksumMismatch
  else .ok body

/-- Decode(p, shape, n, B) (40_codec.md R136), its checks in the order written. -/
def decodeFrame (p : Profile) (shape : Shape) (n : Nat) (bytes : List Byte) : Except ErrCode (List Byte) :=
  if p.termEn && bytes.getLast? != some p.term then .error .unterminatedFrame
  else if bytes.length < p.header.length + p.termLen then .error .unexpectedLength
  else if bytes.take p.header.length ≠ p.header then .error .headerMismatch
  else
    match unstuff p ((bytes.take (bytes.length - p.termLen)).drop p.header.length) with
    | .error e => .error e
    | .ok body =>
      match checkBody p body with
      | .error e => .error e
      | .ok payload => checkPayload shape n payload

end Sys2Proof.Machine
end

