-- ==== Sys2Proof/Machine/Flags.lean ====
section
/-! DEFINITION. The flags: the register words made of fields (STATUS, RESULT, CFG, the profiles), the sticky flags and their clear, and
the interrupt output (10_state.md, 60_exceptions.md). -/

namespace Sys2Proof.Machine

/-- STATUS.STATE's three bits (10_state.md R30). -/
def XState.code : XState → BitVec 3
  | .idle => 0
  | .commandSent => 1
  | .awaitingReply => 2
  | .repliedOk => 3
  | .repliedError => 4
  | .timedOut => 5
  | .fatal => 6

/-- RESULT.CLASS's four bits (60_exceptions.md R250). -/
def ResultClass.code : ResultClass → BitVec 4
  | .noResult => 0
  | .ok => 1
  | .timedOut => 2
  | .malformed => 3
  | .invalidArgument => 4
  | .ioFailure => 5
  | .negative => 6

/-- RESULT.ERR's four bits (60_exceptions.md R251). -/
def ErrCode.code : ErrCode → BitVec 4
  | .noError => 0
  | .checksumMismatch => 1
  | .unterminatedFrame => 2
  | .unexpectedLength => 3
  | .headerMismatch => 4
  | .badEscape => 5
  | .unexpectedReply => 6
  | .badOpcode => 7
  | .badArgument => 8
  | .badProfile => 9
  | .termCollision => 10
  | .shortWrite => 11
  | .txError => 12

/-- The STATUS register (10_state.md R29), BUSY computed. -/
def State.statusWord (s : State) : Word :=
  0#20 ++ BitVec.ofBool s.wrRej ++ BitVec.ofBool s.busErr ++ BitVec.ofBool s.cmdRej ++ BitVec.ofBool s.rxDrop
    ++ 0#2 ++ BitVec.ofBool s.phase ++ BitVec.ofBool s.done ++ BitVec.ofBool s.busy ++ XState.code s.xstate

/-- The RESULT register (10_state.md R34). -/
def State.resultWord (s : State) : Word :=
  0#8 ++ s.resValue ++ 0#4 ++ ErrCode.code s.resErr ++ 0#4 ++ ResultClass.code s.resClass

/-- The CFG register (10_state.md R35). -/
def State.cfgWord (s : State) : Word :=
  0#29 ++ BitVec.ofBool s.slotAscii ++ BitVec.ofBool s.swipeFramed ++ BitVec.ofBool s.ie

/-- Pn_FRAME (10_state.md R36). -/
def Profile.frameWord (p : Profile) : Word :=
  p.term ++ p.hdr1 ++ p.hdr0 ++ 0#3 ++ BitVec.ofBool p.escEn ++ BitVec.ofBool p.termEn ++ BitVec.ofBool p.ckEn ++ p.hdrLen

/-- Pn_CODE (10_state.md R36). -/
def Profile.codeWord (p : Profile) : Word := 0#8 ++ p.mask ++ p.esc ++ p.seed

/-- A write of Pn_FRAME: the fields, reserved bits ignored (10_state.md R36, R51). -/
def Profile.setFrame (v : Word) (p : Profile) : Profile :=
  { p with
    hdrLen := v.extractLsb' 0 2
    ckEn := v.getLsbD 2
    termEn := v.getLsbD 3
    escEn := v.getLsbD 4
    hdr0 := v.extractLsb' 8 8
    hdr1 := v.extractLsb' 16 8
    term := v.extractLsb' 24 8 }

/-- A write of Pn_CODE: the fields, reserved bits ignored (10_state.md R36, R51). -/
def Profile.setCode (v : Word) (p : Profile) : Profile :=
  { p with
    seed := v.extractLsb' 0 8
    esc := v.extractLsb' 8 8
    mask := v.extractLsb' 16 8 }

/-- A write of CFG: bits [2:0] (10_state.md R35). -/
def setCfg (v : Word) (s : State) : State :=
  { s with ie := v.getLsbD 0, swipeFramed := v.getLsbD 1, slotAscii := v.getLsbD 2 }

/-- irq = CFG.IE AND STATUS.DONE (60_exceptions.md R257). -/
def State.irq (s : State) : Bool := s.ie && s.done

/-- A received byte with nowhere to go: RX_DROP is set (41_exchange.md R180). -/
def dropByte (s : State) : State := { s with rxDrop := true }

/-- A CMD write while busy: CMD_REJ is set (41_exchange.md R163). -/
def rejectCommand (s : State) : State := { s with cmdRej := true }

/-- A misaligned, unmapped or read-only write: BUS_ERR is set (20_memory.md R75, R76). -/
def busError (s : State) : State := { s with busErr := true }

/-- A refused write: WR_REJ is set (20_memory.md R77). -/
def refuseWrite (s : State) : State := { s with wrRej := true }

/-- FLAGCLR: the sticky flags and SWIPE_DISC are cleared (10_state.md R31, R32). -/
def clearSticky (s : State) : State :=
  { s with rxDrop := false, cmdRej := false, busErr := false, wrRej := false, swipeDisc := 0 }

/-- SWIPE_DISC counts up, saturating at 0xFFFF (10_state.md R31). -/
def countDiscard (n : Half) : Half := if n = 0xFFFF then 0xFFFF else n + 1

/-- Discard a swipe buffer: FLEN <- 0, SWIPE_DISC counts up; STATE and DL_CNT stay (43_stripe.md R238). -/
def discardSwipe (s : State) : State := { s with flen := 0, swipeDisc := countDiscard s.swipeDisc }

end Sys2Proof.Machine
end

