-- ==== Sys2Proof/Machine/Operands.lean ====
section
/-! DEFINITION. The operand forms: the profile a command uses, the payload it sends, the reply it expects and the time it waits
(41_exchange.md R167, R177), the issue checks' conditions (R164), and the byte values of the source's characters (30_encoding.md R104). -/

namespace Sys2Proof.Machine

/-- The letter S, the inventory query and its echo (30_encoding.md R104). -/
def charS : Byte := 0x53

/-- The letter B, the button wait (30_encoding.md R104). -/
def charB : Byte := 0x42

/-- The letter V, the vend (30_encoding.md R104). -/
def charV : Byte := 0x56

/-- The letter Y, the vend's confirmation (30_encoding.md R104). -/
def charY : Byte := 0x59

/-- The semicolon, the start sentinel of a card swipe (30_encoding.md R104, R105). -/
def cardStart : Byte := 0x3B

/-- The question mark, the end sentinel of a card swipe (30_encoding.md R104, R105). -/
def cardEnd : Byte := 0x3F

/-- The profile PSEL selects (30_encoding.md R93). -/
def State.profile (s : State) : ProfileSel → Profile
  | .p0 => s.p0
  | .p1 => s.p1

/-- slotByte(k): the slot number, or its ASCII digit when CFG.SLOT_ASCII = 1 (42_vending.md R211). -/
def slotByte (s : State) (slot : Byte) : Byte := if s.slotAscii then 0x30 + slot else slot

/-- AWAIT_BUTTON's wait, ARG * 1000 ticks (30_encoding.md R96). -/
def buttonTicks (secs : Byte) : Half := BitVec.ofNat 16 (secs.toNat * 1000)

/-- How AWAITING_REPLY treats bytes and deadline expiry (41_exchange.md R177). -/
inductive WaitMode where
  | reply
  | settle
  | swipe
  deriving DecidableEq, Repr

/-- WaitMode(OP, PHASE) of a command; it does not depend on PHASE (41_exchange.md R177). -/
def commandWaitMode : Instr → WaitMode
  | .queryInv => .reply
  | .hasSoda _ => .reply
  | .awaitButton _ => .reply
  | .vend _ => .reply
  | .readerEnable _ => .settle
  | .readerDisable _ => .settle
  | .setLed _ => .settle
  | .setTracks _ => .settle
  | .awaitSwipe => .swipe
  | .exchange _ shape _ =>
    match shape with
    | .fixed => .reply
    | .sentinel => .reply
    | .lenpfx => .reply
    | .noReply => .settle
  | .encode _ => .reply
  | .decode _ _ _ => .reply
  | .cksum _ => .reply

/-- WaitMode of CMD's OP; a reserved OP is R177's "otherwise". -/
def waitMode (c : Option Instr) : WaitMode :=
  match c with
  | some i => commandWaitMode i
  | none => .reply

/-- A row of ExchangeParams (41_exchange.md R167): profile, payload, reply shape, expected length, wait deadline. -/
structure ExchangeParams where
  profile : Profile
  payload : List Byte
  shape   : Shape
  n       : Nat
  wait    : Half
  deriving DecidableEq, Repr

/-- For a command R167 gives no row (it runs no exchange): used in states no run reaches only. DESIGN CHOICE (log entry 4). -/
def noExchange (s : State) : ExchangeParams where
  profile := s.p0
  payload := []
  shape := .noReply
  n := 0
  wait := s.replyTimeout

/-- The inventory query's row: the letter S under P0, a FIXED reply of 3 bytes (41_exchange.md R167). -/
def inventoryParams (s : State) : ExchangeParams where
  profile := s.p0
  payload := [charS]
  shape := .fixed
  n := 3
  wait := s.replyTimeout

/-- The payload of the vend frame (41_exchange.md R167). -/
def vendPayload (slot : Byte) (s : State) : List Byte := [charV, slotByte s slot]

/-- The vend frame's row (41_exchange.md R167). -/
def vendParams (slot : Byte) (s : State) : ExchangeParams where
  profile := s.p0
  payload := vendPayload slot s
  shape := .fixed
  n := 1
  wait := s.replyTimeout

/-- The payload of a stripe command; empty where the template is none, which the issue checks refuse (41_exchange.md R164). -/
def templatePayload (op arg : Byte) : List Byte := (Config.stripeTemplate op arg).getD []

/-- A fire-and-forget command's row (41_exchange.md R167). -/
def stripeParams (op arg : Byte) (s : State) : ExchangeParams where
  profile := s.p1
  payload := templatePayload op arg
  shape := .noReply
  n := 0
  wait := s.settle

/-- EXCHANGE's wait: SETTLE ticks when no reply is expected, else REPLY_TIMEOUT (41_exchange.md R167). -/
def exchangeWait (shape : Shape) (s : State) : Half :=
  match shape with
  | .fixed => s.replyTimeout
  | .sentinel => s.replyTimeout
  | .lenpfx => s.replyTimeout
  | .noReply => s.settle

/-- ExchangeParams(CMD, ph) of a command (41_exchange.md R167). -/
def commandParams (i : Instr) (ph : Bool) (s : State) : ExchangeParams :=
  match i with
  | .queryInv => inventoryParams s
  | .hasSoda _ => inventoryParams s
  | .awaitButton secs =>
    { profile := s.p0, payload := [charB], shape := .fixed, n := 1, wait := buttonTicks secs }
  | .vend slot => if ph then vendParams slot s else inventoryParams s
  | .readerEnable arg => stripeParams 0x10 arg s
  | .readerDisable arg => stripeParams 0x11 arg s
  | .setLed colour => stripeParams 0x12 colour s
  | .setTracks sel => stripeParams 0x13 sel s
  | .exchange psel shape len =>
    { profile := s.profile psel, payload := s.txPayload, shape := shape, n := len.toNat, wait := exchangeWait shape s }
  | .awaitSwipe => noExchange s
  | .encode _ => noExchange s
  | .decode _ _ _ => noExchange s
  | .cksum _ => noExchange s

/-- ExchangeParams of CMD (41_exchange.md R167). -/
def exchangeParams (c : Option Instr) (ph : Bool) (s : State) : ExchangeParams :=
  match c with
  | some i => commandParams i ph s
  | none => noExchange s

/-- The frame of a payload; empty on TERM_COLLISION, which the issue checks refuse (41_exchange.md R166). -/
def frameOf (p : Profile) (payload : List Byte) : List Byte :=
  match encodeFrame p payload with
  | .ok frame => frame
  | .error _ => []

/-- Check 5 of R164, collision: Encode refuses the payload (40_codec.md R128). -/
def collides (p : Profile) (payload : List Byte) : Bool :=
  match encodeFrame p payload with
  | .ok _ => false
  | .error _ => true

/-- Check 5 of R164, empty frame: nothing would go on the line (41_exchange.md R164). DEDUCED that it can fail for a stripe command with
an empty template too (log entry 6). -/
def emptyFrame (p : Profile) (payload : List Byte) : Bool :=
  match encodeFrame p payload with
  | .ok frame => frame.isEmpty
  | .error _ => false

/-- Check 2 of R164. -/
def checkProfile (p : Profile) : Bool × ErrCode := (!p.valid, .badProfile)

/-- Check 4 of R164. -/
def checkTimeout (s : State) : Bool × ErrCode := (s.replyTimeout == 0, .badArgument)

/-- Check 3 of R164 for a slot. -/
def checkSlot (slot : Byte) : Bool × ErrCode := (decide (7 < slot.toNat), .badArgument)

/-- Check 3 of R164 for the button's seconds. -/
def checkSecs (secs : Byte) : Bool × ErrCode := (secs == 0 || decide (60 < secs.toNat), .badArgument)

/-- Check 3 of R164 for a stripe command: the template is none. -/
def checkTemplate (op arg : Byte) : Bool × ErrCode := ((Config.stripeTemplate op arg).isNone, .badArgument)

/-- Check 3 of R164 for EXCHANGE: SENTINEL without a terminator, or FIXED with LEN > PMAX. -/
def badShape (p : Profile) (shape : Shape) (len : Byte) : Bool :=
  match shape with
  | .fixed => decide (Config.pmax < len.toNat)
  | .sentinel => !p.termEn
  | .lenpfx => false
  | .noReply => false

/-- Check 5 of R164 for EXCHANGE: a count-delimited reply of zero wire length. -/
def zeroReply (p : Profile) (shape : Shape) (len : Byte) : Bool :=
  match shape with
  | .fixed => !p.termEn && p.expLen len.toNat == 0
  | .sentinel => false
  | .lenpfx => false
  | .noReply => false

/-- Check 5 of R164 for one frame: collision, then empty frame. -/
def checkFrame (p : Profile) (payload : List Byte) : List (Bool × ErrCode) :=
  [(collides p payload, .termCollision), (emptyFrame p payload, .badArgument)]

end Sys2Proof.Machine
end

