-- ==== Sys2Proof/Machine/Exchange.lean ====
section
/-! DEFINITION. Starting an exchange (41_exchange.md R166) and the generic EXCHANGE command (R184). -/

namespace Sys2Proof.Machine

/-- StartExchange(ph) of a command: its frame goes to FBUF and the transmission starts (41_exchange.md R166). -/
def startExchange (i : Instr) (ph : Bool) (s : State) : State :=
  sendFrame (frameOf (commandParams i ph s).profile (commandParams i ph s).payload) ph s

/-- EXCHANGE (41_exchange.md R184): the checks of R164, then the frame of PBUF_TX[0..TXLEN) is sent. -/
def execExchange (psel : ProfileSel) (shape : Shape) (len : Byte) (s : State) : Host.Outcome State Fault Refusal :=
  .next (issue (.exchange psel shape len)
    ([checkProfile (s.profile psel), (badShape (s.profile psel) shape len, .badArgument), checkTimeout s]
      ++ checkFrame (s.profile psel) s.txPayload ++ [(zeroReply (s.profile psel) shape len, .badArgument)])
    (startExchange (.exchange psel shape len) false) s)

/-- EXCHANGE's reply: the payload, VALUE 0 (41_exchange.md R181). -/
def replyExchange (psel : ProfileSel) (shape : Shape) (len : Byte) (payload : List Byte) (s : State) : State :=
  finish (some (.exchange psel shape len)) .ok .noError 0 (some payload) s

end Sys2Proof.Machine
end

