-- ==== Sys2Proof/Machine/Vending.lean ====
section
/-! DEFINITION. The vending family (42_vending.md): QUERY_INV, HAS_SODA, AWAIT_BUTTON and VEND, over profile P0. -/

namespace Sys2Proof.Machine

/-- The value of an ASCII hex digit, either case (42_vending.md R201). -/
def hexVal (b : Byte) : Option Byte :=
  if 0x30 ≤ b ∧ b ≤ 0x39 then some (b - 0x30)
  else if 0x41 ≤ b ∧ b ≤ 0x46 then some (b - 0x37)
  else if 0x61 ≤ b ∧ b ≤ 0x66 then some (b - 0x57)
  else none

/-- InvBitmap(P): the letter S, then two hex digits, high nibble first; none where a condition is broken (42_vending.md R201). -/
def invBitmap : List Byte → Option Byte
  | [e, hi, lo] =>
    if e = charS then
      match hexVal hi, hexVal lo with
      | some h, some l => some (h * 16 + l)
      | _, _ => none
    else none
  | _ => none

/-- Bit k of a bitmap: slot k holds stock (42_vending.md R202). -/
def stocked (bitmap slot : Byte) : Bool := bitmap.getLsbD slot.toNat

/-- QUERY_INV (42_vending.md R203). -/
def execQueryInv (s : State) : Host.Outcome State Fault Refusal :=
  .next (issue .queryInv ([checkProfile s.p0, checkTimeout s] ++ checkFrame s.p0 [charS])
    (startExchange .queryInv false) s)

/-- QUERY_INV's reply (42_vending.md R204). -/
def replyQueryInv (payload : List Byte) (s : State) : State :=
  match invBitmap payload with
  | some bitmap => finish (some .queryInv) .ok .noError bitmap (some payload) s
  | none => finish (some .queryInv) .malformed .unexpectedReply 0 none s

/-- HAS_SODA (42_vending.md R206). -/
def execHasSoda (slot : Byte) (s : State) : Host.Outcome State Fault Refusal :=
  .next (issue (.hasSoda slot) ([checkProfile s.p0, checkSlot slot, checkTimeout s] ++ checkFrame s.p0 [charS])
    (startExchange (.hasSoda slot) false) s)

/-- HAS_SODA's reply: bit ARG of the bitmap (42_vending.md R207). -/
def replyHasSoda (slot : Byte) (payload : List Byte) (s : State) : State :=
  match invBitmap payload with
  | some bitmap => finish (some (.hasSoda slot)) .ok .noError (if stocked bitmap slot then 1 else 0) (some payload) s
  | none => finish (some (.hasSoda slot)) .malformed .unexpectedReply 0 none s

/-- AWAIT_BUTTON (42_vending.md R208). -/
def execAwaitButton (secs : Byte) (s : State) : Host.Outcome State Fault Refusal :=
  .next (issue (.awaitButton secs) ([checkProfile s.p0, checkSecs secs, checkTimeout s] ++ checkFrame s.p0 [charB])
    (startExchange (.awaitButton secs) false) s)

/-- AWAIT_BUTTON's reply: the first payload byte, raw (42_vending.md R209). A FIXED reply of 1 byte has one (40_codec.md R134). -/
def replyAwaitButton (secs : Byte) (payload : List Byte) (s : State) : State :=
  finish (some (.awaitButton secs)) .ok .noError (payload.headD 0) (some payload) s

/-- VEND (42_vending.md R212): phase 0, the inventory query, starts; both of its frames are checked (41_exchange.md R164). -/
def execVend (slot : Byte) (s : State) : Host.Outcome State Fault Refusal :=
  .next (issue (.vend slot)
    ([checkProfile s.p0, checkSlot slot, checkTimeout s] ++ checkFrame s.p0 [charS] ++ checkFrame s.p0 (vendPayload slot s))
    (startExchange (.vend slot) false) s)

/-- VEND's reply in phase 0: no bitmap, an empty slot, or the phase change that sends the vend frame (42_vending.md R214). -/
def replyVendInventory (slot : Byte) (payload : List Byte) (s : State) : State :=
  match invBitmap payload with
  | some bitmap =>
    if stocked bitmap slot then startExchange (.vend slot) true s
    else finish (some (.vend slot)) .ok .noError 2 (some payload) s
  | none => finish (some (.vend slot)) .malformed .unexpectedReply 3 none s

/-- VEND's reply in phase 1: the letter Y is SUCCESS, any other byte ERROR (42_vending.md R213). -/
def replyVendConfirm (slot : Byte) (payload : List Byte) (s : State) : State :=
  if payload = [charY] then finish (some (.vend slot)) .ok .noError 1 (some payload) s
  else finish (some (.vend slot)) .negative .noError 3 (some payload) s

end Sys2Proof.Machine
end

