-- ==== Sys2Proof/Machine/Stripe.lean ====
section
/-! DEFINITION. The stripe family (43_stripe.md): the four fire-and-forget commands and the swipe listener, over profile P1. -/

namespace Sys2Proof.Machine

/-- FireAndForget(OP, ARG) (43_stripe.md R230): the checks, then the template's frame is sent under P1. -/
def fireAndForget (i : Instr) (op arg : Byte) (s : State) : State :=
  issue i ([checkProfile s.p1, checkTemplate op arg, checkTimeout s] ++ checkFrame s.p1 (templatePayload op arg))
    (startExchange i false) s

/-- READER_ENABLE (43_stripe.md R232). -/
def execReaderEnable (arg : Byte) (s : State) : Host.Outcome State Fault Refusal :=
  .next (fireAndForget (.readerEnable arg) 0x10 arg s)

/-- READER_DISABLE (43_stripe.md R233). -/
def execReaderDisable (arg : Byte) (s : State) : Host.Outcome State Fault Refusal :=
  .next (fireAndForget (.readerDisable arg) 0x11 arg s)

/-- SET_LED (43_stripe.md R234). -/
def execSetLed (colour : Byte) (s : State) : Host.Outcome State Fault Refusal :=
  .next (fireAndForget (.setLed colour) 0x12 colour s)

/-- SET_TRACKS (43_stripe.md R235). -/
def execSetTracks (sel : Byte) (s : State) : Host.Outcome State Fault Refusal :=
  .next (fireAndForget (.setTracks sel) 0x13 sel s)

/-- AWAIT_SWIPE (43_stripe.md R236): P1 valid with a terminator, a nonzero deadline, then it listens; nothing is sent. -/
def execAwaitSwipe (s : State) : Host.Outcome State Fault Refusal :=
  .next (issue .awaitSwipe [checkProfile s.p1, (!s.p1.termEn, .badProfile), checkTimeout s] startListen s)

/-- CardOK(D): a card of at least the two sentinels and at most PMAX bytes (43_stripe.md R237). -/
def cardOk (card : List Byte) : Bool :=
  decide (2 ≤ card.length) && decide (card.length ≤ Config.pmax)
    && card.head? == some cardStart && card.getLast? == some cardEnd

/-- A swipe buffer that ended: a good card finishes the command, anything else is discarded; true when the command finished
(43_stripe.md R237, R238). -/
def endSwipe (c : Option Instr) (card : List Byte) (s : State) : State × Bool :=
  if cardOk card then (finish c .ok .noError 0 (some card) s, true) else (discardSwipe s, false)

/-- SwipeByte(b) (43_stripe.md R237); true when it ran a Finish. A discard is no transition (R238). -/
def swipeByte (b : Byte) (s : State) : State × Bool :=
  let bytes := s.frameBytes ++ [b]
  let t := appendByte b s
  if s.swipeFramed then
    if frameComplete s.p1 .sentinel 0 bytes then
      match decodeFrame s.p1 .sentinel 0 bytes with
      | .ok card => endSwipe s.command card t
      | .error _ => (discardSwipe t, false)
    else if bytes.length = Config.fbufDepth then (discardSwipe t, false)
    else (t, false)
  else if b = s.p1.term then endSwipe s.command s.frameBytes t
  else if bytes.length = Config.fbufDepth then (discardSwipe t, false)
  else (t, false)

end Sys2Proof.Machine
end

