-- ==== Sys2Proof/Machine/CodecCommands.lean ====
section
/-! DEFINITION. The codec commands CKSUM, ENCODE and DECODE (40_codec.md R140 to R143): no I/O, finished in the issue cycle. -/

namespace Sys2Proof.Machine

/-- ENCODE after its profile check: the frame goes to FBUF, or TERM_COLLISION leaves FBUF and FLEN alone (40_codec.md R142). -/
def encodeToFbuf (psel : ProfileSel) (p : Profile) (payload : List Byte) (s : State) : State :=
  match encodeFrame p payload with
  | .ok frame =>
    finish (some (.encode psel)) .ok .noError (if p.ckEn then checksum p payload else 0) none
      { s with fbuf := s.fbuf.store 0 frame, flen := BitVec.ofNat 16 frame.length }
  | .error code => finish (some (.encode psel)) .invalidArgument code 0 none s

/-- ENCODE (40_codec.md R142). -/
def execEncode (psel : ProfileSel) (s : State) : Host.Outcome State Fault Refusal :=
  .next (issue (.encode psel) [checkProfile (s.profile psel)]
    (encodeToFbuf psel (s.profile psel) s.txPayload) s)

/-- DECODE after its checks: FBUF[0..FLEN) is validated, and a payload goes to PBUF_RX (40_codec.md R143). -/
def decodeFromFbuf (psel : ProfileSel) (shape : Shape) (len : Byte) (p : Profile) (s : State) : State :=
  match decodeFrame p shape len.toNat s.frameBytes with
  | .ok payload => finish (some (.decode psel shape len)) .ok .noError 0 (some payload) s
  | .error code => finish (some (.decode psel shape len)) .malformed code 0 none s

/-- DECODE's argument check: SHAPE = NONE, SENTINEL without a terminator, or FIXED with LEN > PMAX (40_codec.md R143). -/
def badDecodeShape (p : Profile) (shape : Shape) (len : Byte) : Bool :=
  match shape with
  | .fixed => decide (Config.pmax < len.toNat)
  | .sentinel => !p.termEn
  | .lenpfx => false
  | .noReply => true

/-- DECODE (40_codec.md R143). -/
def execDecode (psel : ProfileSel) (shape : Shape) (len : Byte) (s : State) : Host.Outcome State Fault Refusal :=
  .next (issue (.decode psel shape len)
    [checkProfile (s.profile psel), (badDecodeShape (s.profile psel) shape len, .badArgument)]
    (decodeFromFbuf psel shape len (s.profile psel)) s)

/-- CKSUM (40_codec.md R141): no check, the profile's validity included. -/
def execCksum (psel : ProfileSel) (s : State) : Host.Outcome State Fault Refusal :=
  .next (issue (.cksum psel) []
    (finish (some (.cksum psel)) .ok .noError (checksum (s.profile psel) s.txPayload) none) s)

end Sys2Proof.Machine
end

