-- ==== Sys2Proof/Machine/Engine.lean ====
section
/-! DEFINITION. The exchange engine and timeout arbiter (41_exchange.md): what one cycle does to a running command. A function that
answers a pair says beside the state whether a transition ran (a Finish or the start of a phase), after which the cycle's tick is not
counted (R160). -/

namespace Sys2Proof.Machine

/-- Interpret(OP, PHASE, P) (41_exchange.md R181). A command that expects no reply has no row: it keeps the generic form, in states no
run reaches only. DESIGN CHOICE (log entry 4). -/
def interpret (c : Option Instr) (payload : List Byte) (s : State) : State :=
  match c with
  | some .queryInv => replyQueryInv payload s
  | some (.hasSoda slot) => replyHasSoda slot payload s
  | some (.awaitButton secs) => replyAwaitButton secs payload s
  | some (.vend slot) => if s.phase then replyVendConfirm slot payload s else replyVendInventory slot payload s
  | some (.exchange psel shape len) => replyExchange psel shape len payload s
  | some (.readerEnable _) => finish c .ok .noError 0 (some payload) s
  | some (.readerDisable _) => finish c .ok .noError 0 (some payload) s
  | some (.setLed _) => finish c .ok .noError 0 (some payload) s
  | some (.setTracks _) => finish c .ok .noError 0 (some payload) s
  | some .awaitSwipe => finish c .ok .noError 0 (some payload) s
  | some (.encode _) => finish c .ok .noError 0 (some payload) s
  | some (.decode _ _ _) => finish c .ok .noError 0 (some payload) s
  | some (.cksum _) => finish c .ok .noError 0 (some payload) s
  | none => finish c .ok .noError 0 (some payload) s

/-- TxError (41_exchange.md R174). -/
def txError (s : State) : State := finish s.command .ioFailure .txError (failValue s.command) none s

/-- TxComplete (41_exchange.md R176): FLEN <- 0, then the wait starts, or a zero settle delay ends the command. -/
def txComplete (s : State) : State :=
  let t := { s with flen := 0 }
  if waitMode s.command = .settle ∧ s.settle = 0 then finish s.command .ok .noError 0 none t
  else { t with xstate := .awaitingReply, dlCnt := (exchangeParams s.command s.phase s).wait }

/-- TxHandoff (41_exchange.md R175): the byte at TX_IDX passes; the last one completes the transmission. -/
def txHandoff (s : State) : State × Bool :=
  let t := { s with txIdx := s.txIdx + 1 }
  if s.txIdx + 1 = s.flen then (txComplete t, true) else (t, false)

/-- The error code of an exhausted byte budget (41_exchange.md R179). -/
def budgetError (p : Profile) : ErrCode := if p.termEn then .unterminatedFrame else .unexpectedLength

/-- RxByte(b) in REPLY mode (41_exchange.md R179). -/
def replyByte (b : Byte) (s : State) : State × Bool :=
  let bytes := s.frameBytes ++ [b]
  let t := appendByte b s
  let x := exchangeParams s.command s.phase s
  if frameComplete x.profile x.shape x.n bytes then
    match decodeFrame x.profile x.shape x.n bytes with
    | .ok payload => (interpret s.command payload t, true)
    | .error code => (finish s.command .malformed code (failValue s.command) none t, true)
  else if bytes.length = Config.fbufDepth then
    (finish s.command .malformed (budgetError x.profile) (failValue s.command) none t, true)
  else (t, false)

/-- RxByte(b), by wait mode (41_exchange.md R179). -/
def rxByte (b : Byte) (s : State) : State × Bool :=
  match waitMode s.command with
  | .reply => replyByte b s
  | .settle => (dropByte s, false)
  | .swipe => swipeByte b s

/-- Expire (41_exchange.md R178). It runs while SFC is busy only, so the other states are left as they are. -/
def expire (s : State) : State :=
  match s.xstate with
  | .commandSent => finish s.command .ioFailure .shortWrite (failValue s.command) none s
  | .awaitingReply =>
    match waitMode s.command with
    | .reply => finish s.command .timedOut .noError (failValue s.command) none s
    | .settle => finish s.command .ok .noError 0 none s
    | .swipe => finish s.command .timedOut .noError 0 none s
  | .idle => s
  | .repliedOk => s
  | .repliedError => s
  | .timedOut => s
  | .fatal => s

/-- Tick (41_exchange.md R178). -/
def countTick (s : State) : State :=
  if 1 < s.dlCnt then { s with dlCnt := s.dlCnt - 1 } else expire { s with dlCnt := 0 }

/-- A byte that arrives with nowhere to go, if one did (41_exchange.md R180). -/
def dropRx (rx : Option Byte) (s : State) : State :=
  match rx with
  | some _ => dropByte s
  | none => s

/-- The transmitter's part of a cycle: the error wins over the handshake (41_exchange.md R160, R183 (a)). -/
def txPart (inp : Inputs) (s : State) : State × Bool :=
  if inp.txErr then (txError s, true)
  else if inp.txReady then txHandoff s
  else (s, false)

/-- Part (1) of a cycle without its tick (41_exchange.md R160). -/
def enginePart (inp : Inputs) (s : State) : State × Bool :=
  match s.xstate with
  | .commandSent => (dropRx inp.rx (txPart inp s).1, (txPart inp s).2)
  | .awaitingReply =>
    match inp.rx with
    | some b => rxByte b s
    | none => (s, false)
  | .idle => (dropRx inp.rx s, false)
  | .repliedOk => (dropRx inp.rx s, false)
  | .repliedError => (dropRx inp.rx s, false)
  | .timedOut => (dropRx inp.rx s, false)
  | .fatal => (dropRx inp.rx s, false)

/-- Part (1) of a cycle (41_exchange.md R160): the engine, then the tick if the cycle was busy and no transition ran. -/
def engineCycle (inp : Inputs) (s : State) : State :=
  if s.busy && inp.tick && !(enginePart inp s).2 then countTick (enginePart inp s).1 else (enginePart inp s).1

end Sys2Proof.Machine
end

