-- ==== Sys2Proof/Machine/Dispatch.lean ====
section
/-! DEFINITION. The issue-cycle effect of each command on the state in which it was accepted (41_exchange.md R163 to R165), one arm per
constructor. The later cycles of a command are the engine's (Machine/Engine.lean). -/

namespace Sys2Proof.Machine

def exec (i : Instr) (s : State) : Host.Outcome State Fault Refusal :=
  match i with
  | .queryInv => Sys2Proof.Machine.execQueryInv s
  | .hasSoda slot => Sys2Proof.Machine.execHasSoda slot s
  | .awaitButton secs => Sys2Proof.Machine.execAwaitButton secs s
  | .vend slot => Sys2Proof.Machine.execVend slot s
  | .readerEnable arg => Sys2Proof.Machine.execReaderEnable arg s
  | .readerDisable arg => Sys2Proof.Machine.execReaderDisable arg s
  | .setLed colour => Sys2Proof.Machine.execSetLed colour s
  | .setTracks sel => Sys2Proof.Machine.execSetTracks sel s
  | .awaitSwipe => Sys2Proof.Machine.execAwaitSwipe s
  | .exchange psel shape len => Sys2Proof.Machine.execExchange psel shape len s
  | .encode psel => Sys2Proof.Machine.execEncode psel s
  | .decode psel shape len => Sys2Proof.Machine.execDecode psel shape len s
  | .cksum psel => Sys2Proof.Machine.execCksum psel s

end Sys2Proof.Machine
end

