-- ==== Sys2Proof/Machine/Bus.lean ====
section
/-! DEFINITION. The host port (20_memory.md): the register map, reads, writes with their refusals, the CMD write that issues a command
(41_exchange.md R163), the outputs of a cycle (10_state.md R25), and one whole cycle (41_exchange.md R160). -/

namespace Sys2Proof.Machine

/-- What a host address names (10_state.md R26). -/
inductive Target where
  | id
  | caps
  | status
  | ctrl
  | cmd
  | result
  | cfg
  | replyTimeout
  | settle
  | txlen
  | rxlen
  | flen
  | dlRem
  | txIdx
  | swipeDisc
  | p0Frame
  | p0Code
  | p1Frame
  | p1Code
  | pbufTx (i : Nat)
  | pbufRx (i : Nat)
  | fbuf (i : Nat)
  deriving DecidableEq, Repr

/-- The register rows of the map (10_state.md R26). -/
def registerMap : List (Nat × Target) :=
  [(0x000, .id), (0x004, .caps), (0x008, .status), (0x00C, .ctrl), (0x010, .cmd), (0x014, .result), (0x018, .cfg),
   (0x01C, .replyTimeout), (0x020, .settle), (0x024, .txlen), (0x028, .rxlen), (0x02C, .flen), (0x030, .dlRem),
   (0x034, .txIdx), (0x038, .swipeDisc), (0x040, .p0Frame), (0x044, .p0Code), (0x048, .p1Frame), (0x04C, .p1Code)]

/-- Slot i of a buffer window, if the buffer has it (20_memory.md R74). -/
def bufferSlot (mk : Nat → Target) (depth i : Nat) : Option Target := if i < depth then some (mk i) else none

/-- What an address names; none is misaligned or unmapped (20_memory.md R75, R76). -/
def targetOf (addr : Half) : Option Target :=
  if addr.toNat % 4 ≠ 0 then none
  else if addr.toNat < 0x1000 then registerMap.lookup addr.toNat
  else if addr.toNat < 0x2000 then bufferSlot .pbufTx Config.pmax ((addr.toNat - 0x1000) / 4)
  else if addr.toNat < 0x3000 then bufferSlot .pbufRx Config.pmax ((addr.toNat - 0x2000) / 4)
  else if addr.toNat < 0x4000 then bufferSlot .fbuf Config.fbufDepth ((addr.toNat - 0x3000) / 4)
  else none

/-- The value a target reads as, from the start-of-cycle state (20_memory.md R71). -/
def readTarget (s : State) : Target → Word
  | .id => 0x53464301
  | .caps => BitVec.ofNat 16 Config.fbufDepth ++ BitVec.ofNat 16 Config.pmax
  | .status => s.statusWord
  | .ctrl => 0
  | .cmd => s.cmd
  | .result => s.resultWord
  | .cfg => s.cfgWord
  | .replyTimeout => s.replyTimeout.setWidth 32
  | .settle => s.settle.setWidth 32
  | .txlen => s.txlen.setWidth 32
  | .rxlen => s.rxlen.setWidth 32
  | .flen => s.flen.setWidth 32
  | .dlRem => s.dlCnt.setWidth 32
  | .txIdx => s.txIdx.setWidth 32
  | .swipeDisc => s.swipeDisc.setWidth 32
  | .p0Frame => s.p0.frameWord
  | .p0Code => s.p0.codeWord
  | .p1Frame => s.p1.frameWord
  | .p1Code => s.p1.codeWord
  | .pbufTx i => (s.pbufTx.read i).setWidth 32
  | .pbufRx i => if i < s.rxlen.toNat then (s.pbufRx.read i).setWidth 32 else 0
  | .fbuf i => (s.fbuf.read i).setWidth 32

/-- BusRead(addr) (20_memory.md R71). -/
def busRead (s : State) (addr : Half) : Word :=
  match targetOf addr with
  | some target => readTarget s target
  | none => 0

/-- A CMD write judged against the start of the cycle (41_exchange.md R163): rejected while busy; else the word is latched, and its
command is issued, or a reserved OP finishes INVALID_ARGUMENT / BAD_OPCODE (30_encoding.md R98). -/
def cmdWrite (busy : Bool) (v : Word) (s : State) : Host.Outcome State Fault Refusal :=
  if busy then .next (rejectCommand s)
  else
    match decodeWord v with
    | .ok i => exec i (latchCommand v s)
    | .error _ => .next (finish none .invalidArgument .badOpcode 0 none (accept (latchCommand v s)))

/-- The CTRL actions on the length registers (10_state.md R32): TXCLR always, FCLR unless busy, when it is refused and the other bits
still act (20_memory.md R77). -/
def ctrlLengths (busy : Bool) (v : Word) (s : State) : State :=
  let t := if v.getLsbD 3 then { s with txlen := 0 } else s
  if v.getLsbD 2 then (if busy then refuseWrite t else { t with flen := 0 }) else t

/-- A write that is refused while busy (20_memory.md R77, case 1). -/
def unlessBusy (busy : Bool) (store : State → State) (s : State) : State :=
  if busy then refuseWrite s else store s

/-- A TXLEN write: refused above PMAX (10_state.md R42). -/
def writeTxlen (v : Word) (s : State) : State :=
  if Config.pmax < (v.extractLsb' 0 16).toNat then refuseWrite s else { s with txlen := v.extractLsb' 0 16 }

/-- A FLEN write when not busy: refused above FBUF_DEPTH (10_state.md R44). -/
def writeFlen (v : Word) (s : State) : State :=
  if Config.fbufDepth < (v.extractLsb' 0 16).toNat then refuseWrite s else { s with flen := v.extractLsb' 0 16 }

/-- A write to a mapped target (20_memory.md R72, R76, R77). -/
def writeTarget (busy : Bool) (target : Target) (v : Word) (s : State) : Host.Outcome State Fault Refusal :=
  match target with
  | .id => .next (busError s)
  | .caps => .next (busError s)
  | .status => .next (busError s)
  | .ctrl => .next (ctrlLengths busy v s)
  | .cmd => cmdWrite busy v s
  | .result => .next (busError s)
  | .cfg => .next (unlessBusy busy (setCfg v) s)
  | .replyTimeout => .next (unlessBusy busy (fun t => { t with replyTimeout := v.extractLsb' 0 16 }) s)
  | .settle => .next (unlessBusy busy (fun t => { t with settle := v.extractLsb' 0 16 }) s)
  | .txlen => .next (writeTxlen v s)
  | .rxlen => .next (busError s)
  | .flen => .next (unlessBusy busy (writeFlen v) s)
  | .dlRem => .next (busError s)
  | .txIdx => .next (busError s)
  | .swipeDisc => .next (busError s)
  | .p0Frame => .next (unlessBusy busy (fun t => { t with p0 := t.p0.setFrame v }) s)
  | .p0Code => .next (unlessBusy busy (fun t => { t with p0 := t.p0.setCode v }) s)
  | .p1Frame => .next (unlessBusy busy (fun t => { t with p1 := t.p1.setFrame v }) s)
  | .p1Code => .next (unlessBusy busy (fun t => { t with p1 := t.p1.setCode v }) s)
  | .pbufTx i => .next { s with pbufTx := s.pbufTx.write i (v.extractLsb' 0 8) }
  | .pbufRx _ => .next (busError s)
  | .fbuf i => .next (unlessBusy busy (fun t => { t with fbuf := t.fbuf.write i (v.extractLsb' 0 8) }) s)

/-- Part (2) of a cycle: the host's access, judged against the start of the cycle (41_exchange.md R160). -/
def hostAccess (busy : Bool) (bus : BusAccess) (s : State) : Host.Outcome State Fault Refusal :=
  match bus with
  | .idle => .next s
  | .read _ => .next s
  | .write addr v =>
    match targetOf addr with
    | some target => writeTarget busy target v s
    | none => .next (busError s)

/-- The CTRL word a cycle writes, if it writes CTRL. -/
def ctrlWord (bus : BusAccess) : Option Word :=
  match bus with
  | .idle => none
  | .read _ => none
  | .write addr v => if targetOf addr = some .ctrl then some v else none

/-- The clears of a CTRL write, DONECLR and FLAGCLR, taken before the cycle's sets, so that a set in the same cycle wins
(10_state.md R31, R32; 60_exceptions.md R256). DEDUCED (log entry 7). -/
def ctrlClears (bus : BusAccess) (s : State) : State :=
  match ctrlWord bus with
  | some v =>
    let t := if v.getLsbD 0 then acknowledge s else s
    if v.getLsbD 1 then clearSticky t else t
  | none => s

/-- tx_valid (10_state.md R25). -/
def State.txValid (s : State) : Bool := s.xstate == .commandSent

/-- tx_byte (10_state.md R25). -/
def State.txByte (s : State) : Byte := if s.txValid then s.fbuf.read s.txIdx.toNat else 0

/-- The byte that passes to the UART in a cycle, if one does (10_state.md R25); a reset cycle ignores tx_ready (70_reset R280). -/
def sentByte (inp : Inputs) (s : State) : Option Byte :=
  if s.txValid && inp.txReady && !inp.txErr && !inp.rst then some s.txByte else none

/-- rdata: a read's value; 0 in a reset cycle (20_memory.md R71, 70_reset_and_hazards.md R280). -/
def readData (inp : Inputs) (s : State) : Option Word :=
  match inp.bus with
  | .idle => none
  | .read addr => some (if inp.rst then 0 else busRead s addr)
  | .write _ _ => none

/-- The outputs of a cycle, from the start-of-cycle state (10_state.md R25). -/
def outputs (inp : Inputs) (s : State) : Outputs where
  txValid := s.txValid
  txByte := s.txByte
  irq := s.irq
  rdata := readData inp s
  sent := sentByte inp s

/-- The model's own bookkeeping of a cycle: its inputs are used up and its outputs recorded (log entries 1 and 2). -/
def advance (inp : Inputs) (s : State) : State :=
  { s with inputs := s.inputs.tail, cycle := s.cycle + 1, out := outputs inp s }

/-- A reset cycle: every element of SFC takes its reset value, whatever else happens (70_reset_and_hazards.md R280). -/
def resetCycle (inp : Inputs) (s : State) : State :=
  { State.reset with inputs := s.inputs.tail, cycle := s.cycle + 1, out := outputs inp s }

/-- One clock cycle on given inputs (41_exchange.md R160). -/
def clockCycle (inp : Inputs) (s : State) : Host.Outcome State Fault Refusal :=
  if inp.rst then .next (resetCycle inp s)
  else hostAccess s.busy inp.bus (engineCycle inp (ctrlClears inp.bus (advance inp s)))

/-- The inputs of the coming cycle: the first ones listed, or free ones. DESIGN CHOICE (log entry 1). -/
def State.nextInputs (s : State) : Inputs :=
  match s.inputs with
  | inp :: _ => inp
  | [] => Config.envInput s.cycle

/-- The inputs of a cycle in which the host writes a command word to CMD and nothing else happens. -/
def commandInputs (v : Word) : Inputs where
  rst := false
  bus := .write 0x010 v
  rx := none
  txReady := false
  txErr := false
  tick := false

/-- A state that accepts a command: a busy one is taken to IDLE, any other is left as it is. -/
def releaseBusy (s : State) : State := if s.busy then { s with xstate := .idle } else s

/-- The coming cycle's inputs are a CMD write of v, on a machine that accepts it. -/
def presentCommand (v : Word) (s : State) : State :=
  { releaseBusy s with inputs := commandInputs v :: s.inputs.tail }

end Sys2Proof.Machine
end

