-- ==== Sys2Proof/Machine/Step.lean ====
section
/-! DEFINITION. The step: one clock cycle (00_scope.md R19) on the inputs the state holds for it. -/

namespace Sys2Proof.Machine

/-- One clock cycle (41_exchange.md R160). -/
def step (s : State) : Host.Outcome State Fault Refusal := clockCycle s.nextInputs s

/-- The state whose next cycle writes the row's word to CMD on a machine that accepts it: SFC has no program memory and no
program counter (00_scope.md R3), the host's CMD write is how an instruction comes to run. DESIGN CHOICE (log entry 5). -/
def State.withFetchWord (s : State) (nbits w : Nat) : State := presentCommand (BitVec.ofNat 32 (w % 2 ^ nbits)) s

end Sys2Proof.Machine
end

