-- ==== Sys2Proof/Safety.lean ====
section
/-! DEFINITION. What claims about SFC are stated in: the invariant of a run, the shapes of an outcome (a frame starts to be sent, a
command finishes), and the tables of the spec that a whole-machine rule quantifies over. -/

namespace Sys2Proof.Safety

open Sys2Proof.Machine

/-- What the issue checks of 41_exchange.md R164 leave true for as long as the command runs: profile, argument, timeout, reply shape and
the vend frame, none of which a host can change while SFC is busy (20_memory.md R84). A codec command never runs. -/
def ready (i : Instr) (s : State) : Bool :=
  match i with
  | .queryInv => s.p0.valid && s.replyTimeout != 0
  | .hasSoda slot => s.p0.valid && s.replyTimeout != 0 && decide (slot.toNat ≤ 7)
  | .awaitButton secs => s.p0.valid && s.replyTimeout != 0 && decide (1 ≤ secs.toNat) && decide (secs.toNat ≤ 60)
  | .vend slot =>
    s.p0.valid && s.replyTimeout != 0 && decide (slot.toNat ≤ 7) && !collides s.p0 (vendPayload slot s)
  | .readerEnable _ => s.p1.valid && s.replyTimeout != 0
  | .readerDisable _ => s.p1.valid && s.replyTimeout != 0
  | .setLed _ => s.p1.valid && s.replyTimeout != 0
  | .setTracks _ => s.p1.valid && s.replyTimeout != 0
  | .awaitSwipe => s.p1.valid && s.p1.termEn && s.replyTimeout != 0
  | .exchange psel shape len =>
    (s.profile psel).valid && s.replyTimeout != 0 && !badShape (s.profile psel) shape len
      && !zeroReply (s.profile psel) shape len
  | .encode _ => false
  | .decode _ _ _ => false
  | .cksum _ => false

/-- The invariant of a run. -/
structure RunInv (s : State) : Prop where
  /-- The buffers keep their canonical form. -/
  wf : s.pbufTx.wf = true ∧ s.pbufRx.wf = true ∧ s.fbuf.wf = true
  /-- The buffers hold nothing past their depths (20_memory.md R74). -/
  below : s.pbufTx.below Config.pmax = true ∧ s.pbufRx.below Config.pmax = true
    ∧ s.fbuf.below Config.fbufDepth = true
  /-- The lengths stay in range (10_state.md R42, R43, R44). -/
  lengths : s.txlen.toNat ≤ Config.pmax ∧ s.rxlen.toNat ≤ Config.pmax ∧ s.flen.toNat ≤ Config.fbufDepth
  /-- Phase 1 is VEND's alone (42_vending.md R214). -/
  phaseVend : s.phase = true → ∃ slot, s.command = some (.vend slot)
  /-- A payload is exposed for OK and NEGATIVE only (60_exceptions.md R253). -/
  exposed : s.rxlen ≠ 0 → s.resClass = .ok ∨ s.resClass = .negative
  /-- DONE comes with an outcome (60_exceptions.md R250, R256). -/
  outcome : s.done = true → s.resClass ≠ .noResult
  /-- While SFC is busy, DONE is 0 and RESULT and RXLEN are clear (60_exceptions.md R256, 41_exchange.md R163). -/
  noOutcomeYet : s.busy = true → s.done = false ∧ s.resClass = .noResult ∧ s.rxlen = 0
  /-- While SFC is busy, the deadline has not expired (41_exchange.md R178). -/
  deadline : s.busy = true → s.dlCnt ≠ 0
  /-- While SFC is busy, CMD holds a checked command. -/
  running : s.busy = true → ∃ i, s.command = some i ∧ ready i s = true
  /-- While a frame is sent, the next byte lies inside it, and the command is not the listener (41_exchange.md R168, R175). -/
  sending : s.xstate = .commandSent → s.txIdx.toNat < s.flen.toNat ∧ s.command ≠ some .awaitSwipe
  /-- While a reply is awaited, the frame buffer has room (41_exchange.md R179). -/
  receiving : s.xstate = .awaitingReply → s.flen.toNat < Config.fbufDepth

/-- The bits of a command word that its command uses (30_encoding.md R91, R95). -/
def usedBits (w : Word) : Word :=
  if w.extractLsb' 0 8 ∈ [0x02#8, 0x03#8, 0x04#8, 0x10#8, 0x11#8, 0x12#8, 0x13#8] then 0x0000FFFF
  else if w.extractLsb' 0 8 ∈ [0x20#8, 0x22#8] then (if w.extractLsb' 17 2 = 0#2 then 0xFF0700FF else 0x000700FF)
  else if w.extractLsb' 0 8 ∈ [0x21#8, 0x23#8] then 0x000100FF
  else 0x000000FF

/-- The OP values of the opcode map (30_encoding.md R91). -/
def opcodes : List Byte := [0x01, 0x02, 0x03, 0x04, 0x10, 0x11, 0x12, 0x13, 0x14, 0x20, 0x21, 0x22, 0x23]

/-- The state with the old outcome cleared, as an accepted command leaves it (41_exchange.md R163). -/
def opened (s : State) : State :=
  { s with resClass := .noResult, resErr := .noError, resValue := 0, rxlen := 0, done := false, phase := false }

/-- From s to t: frame F starts to be sent in phase ph (41_exchange.md R166). FBUF holds F and past it what it held; nothing else
changes. -/
def StartsSending (frame : List Byte) (ph : Bool) (s t : State) : Prop :=
  t = { s with xstate := .commandSent, phase := ph, txIdx := 0, dlCnt := s.replyTimeout, flen := t.flen, fbuf := t.fbuf }
    ∧ t.flen.toNat = frame.length
    ∧ ∀ a : Nat, t.fbuf.read a = if a < frame.length then frame.getD a 0 else s.fbuf.read a

/-- From s to t: the command finishes (41_exchange.md R172) in STATE x, with a payload in PBUF_RX or none. PBUF_RX past the payload
keeps its bytes; nothing else changes. -/
def Finishes (cls : ResultClass) (err : ErrCode) (value : Byte) (x : XState) (payload : Option (List Byte))
    (s t : State) : Prop :=
  t = { s with
        resClass := cls, resErr := err, resValue := value, xstate := x, done := true,
        rxlen := t.rxlen, pbufRx := t.pbufRx }
    ∧ match payload with
      | none => t.rxlen = 0 ∧ t.pbufRx = s.pbufRx
      | some bytes =>
        t.rxlen.toNat = bytes.length
          ∧ ∀ a : Nat, t.pbufRx.read a = if a < bytes.length then bytes.getD a 0 else s.pbufRx.read a

/-- The state a cycle works on: its inputs are used up and its outputs recorded (log entries 1 and 2); SFC itself is unchanged. -/
def begun (inp : Inputs) (s : State) : State :=
  { s with inputs := s.inputs.tail, cycle := s.cycle + 1, out := outputs inp s }

/-- The same with a received byte appended to FBUF (41_exchange.md R179, 43_stripe.md R237). -/
def received (inp : Inputs) (b : Byte) (s : State) : State :=
  { begun inp s with fbuf := s.fbuf.write s.flen.toNat b, flen := s.flen + 1 }

/-- A cycle that only brings a byte to a machine awaiting a reply: no reset, no host access; the tick is free. -/
def bringsByte (inp : Inputs) (b : Byte) (s : State) : Prop :=
  inp.rst = false ∧ inp.bus = .idle ∧ inp.rx = some b ∧ s.xstate = .awaitingReply

/-- How a cycle goes on for the running command i when no transition ran in it, from the state s that the engine's other events leave:
the cycle's tick, if it brings one, is counted, and at the last tick the command ends (41_exchange.md R160, R178). It is used for a busy
machine only. -/
def TickCounted (tick : Bool) (i : Instr) (s t : State) : Prop :=
  if tick = false then t = s
  else if 1 < s.dlCnt.toNat then t = { s with dlCnt := s.dlCnt - 1 }
  else
    match s.xstate with
    | .commandSent => Finishes .ioFailure .shortWrite (commandFailValue i) .fatal none { s with dlCnt := 0 } t
    | .awaitingReply =>
      if commandWaitMode i = .settle then Finishes .ok .noError 0 .repliedOk none { s with dlCnt := 0 } t
      else Finishes .timedOut .noError (commandFailValue i) .timedOut none { s with dlCnt := 0 } t
    | .idle => False
    | .repliedOk => False
    | .repliedError => False
    | .timedOut => False
    | .fatal => False

/-- The payload bytes of the FIXED reply a vending command waits for, by phase; none for the other commands (41_exchange.md R167). -/
def replyLength (i : Instr) (ph : Bool) : Option Nat :=
  match i with
  | .queryInv => some 3
  | .hasSoda _ => some 3
  | .awaitButton _ => some 1
  | .vend _ => if ph then some 1 else some 3
  | .readerEnable _ => none
  | .readerDisable _ => none
  | .setLed _ => none
  | .setTracks _ => none
  | .awaitSwipe => none
  | .exchange _ _ _ => none
  | .encode _ => none
  | .decode _ _ _ => none
  | .cksum _ => none

/-- How a stripe command's issue ends, by the checks of 41_exchange.md R164 in order (43_stripe.md R230). That an empty frame, which an
empty template can give, ends it BAD_ARGUMENT is the model's reading of R164's row. DEDUCED (log entry 6). -/
def StripeIssue (op arg : Byte) (s t : State) : Prop :=
  if s.p1.valid = false then Finishes .invalidArgument .badProfile 0 .idle none (opened s) t
  else
    match Config.stripeTemplate op arg with
    | none => Finishes .invalidArgument .badArgument 0 .idle none (opened s) t
    | some payload =>
      if s.replyTimeout = 0 then Finishes .invalidArgument .badArgument 0 .idle none (opened s) t
      else
        match encodeFrame s.p1 payload with
        | .error _ => Finishes .invalidArgument .termCollision 0 .idle none (opened s) t
        | .ok frame =>
          if frame = [] then Finishes .invalidArgument .badArgument 0 .idle none (opened s) t
          else StartsSending frame false (opened s) t

/-- An aligned address that matches no row of the register map (20_memory.md R76). -/
def unmapped (a : Half) : Prop :=
  a.toNat % 4 = 0
    ∧ (a.toNat = 0x03C ∨ (0x050 ≤ a.toNat ∧ a.toNat ≤ 0x0FFC) ∨ 0x4000 ≤ a.toNat
      ∨ (0x1000 + 4 * Config.pmax ≤ a.toNat ∧ a.toNat < 0x2000)
      ∨ (0x2000 + 4 * Config.pmax ≤ a.toNat ∧ a.toNat < 0x3000)
      ∨ (0x3000 + 4 * Config.fbufDepth ≤ a.toNat ∧ a.toNat < 0x4000))

/-- The address of a read-only register or buffer entry (20_memory.md R76). -/
def readOnly (a : Half) : Prop :=
  a.toNat ∈ [0x000, 0x004, 0x008, 0x014, 0x028, 0x030, 0x034, 0x038]
    ∨ ∃ i : Nat, i < Config.pmax ∧ a.toNat = 0x2000 + 4 * i

/-- The address of a register or buffer entry that a running exchange reads (20_memory.md R77, case 1). -/
def lockedWhileBusy (a : Half) : Prop :=
  a.toNat ∈ [0x018, 0x01C, 0x020, 0x02C, 0x040, 0x044, 0x048, 0x04C]
    ∨ ∃ i : Nat, i < Config.fbufDepth ∧ a.toNat = 0x3000 + 4 * i

/-- The address of a write that stores nothing and sets BUS_ERR: misaligned, unmapped or read-only (20_memory.md R75, R76). -/
def badWrite (a : Half) : Prop := a.toNat % 4 ≠ 0 ∨ unmapped a ∨ readOnly a

/-- A write that is refused, judged against the start of its cycle (20_memory.md R77). -/
def refusedWrite (s : State) (a : Half) (v : Word) : Prop :=
  (s.busy = true ∧ lockedWhileBusy a) ∨ (s.busy = true ∧ a = 0x00C ∧ v.getLsbD 2 = true)
    ∨ (a = 0x024 ∧ Config.pmax < (v.extractLsb' 0 16).toNat)
    ∨ (a = 0x02C ∧ Config.fbufDepth < (v.extractLsb' 0 16).toNat)

/-- The cycle's access writes CTRL with FLAGCLR = 1 (10_state.md R31). -/
def flagsCleared (bus : BusAccess) : Bool :=
  match bus with
  | .idle => false
  | .read _ => false
  | .write a v => a == 0x00C && v.getLsbD 1

/-- The cycle brings a byte that no exchange waits for (41_exchange.md R180). -/
def byteDropped (inp : Inputs) (s : State) : Bool :=
  inp.rx.isSome && (s.xstate != .awaitingReply || waitMode s.command == .settle)

/-- The received byte ends the listener's buffer, and the buffer is no card: it is discarded (43_stripe.md R237, R238). -/
def endsNoCard (b : Byte) (s : State) : Bool :=
  if s.swipeFramed then
    if frameComplete s.p1 .sentinel 0 (s.frameBytes ++ [b]) then
      match decodeFrame s.p1 .sentinel 0 (s.frameBytes ++ [b]) with
      | .ok card => !cardOk card
      | .error _ => true
    else decide (s.flen.toNat + 1 = Config.fbufDepth)
  else if b = s.p1.term then !cardOk s.frameBytes
  else decide (s.flen.toNat + 1 = Config.fbufDepth)

/-- The cycle discards a swipe buffer (43_stripe.md R238). -/
def swipeDiscarded (inp : Inputs) (s : State) : Bool :=
  match inp.rx with
  | none => false
  | some b => s.xstate == .awaitingReply && s.command == some .awaitSwipe && endsNoCard b s

/-- The wait deadline of a command in ticks, the dl column of 41_exchange.md R167. -/
def waitTicks (i : Instr) (s : State) : Nat :=
  match i with
  | .queryInv => s.replyTimeout.toNat
  | .hasSoda _ => s.replyTimeout.toNat
  | .awaitButton secs => secs.toNat * 1000
  | .vend _ => s.replyTimeout.toNat
  | .readerEnable _ => s.settle.toNat
  | .readerDisable _ => s.settle.toNat
  | .setLed _ => s.settle.toNat
  | .setTracks _ => s.settle.toNat
  | .awaitSwipe => s.replyTimeout.toNat
  | .exchange _ shape _ => if shape = .noReply then s.settle.toNat else s.replyTimeout.toNat
  | .encode _ => 0
  | .decode _ _ _ => 0
  | .cksum _ => 0

/-- The ticks of a VEND's second exchange, if it is still to come (41_exchange.md R185). -/
def secondExchange (i : Instr) (s : State) : Nat :=
  match i with
  | .vend _ => if s.phase then 0 else 2 * s.replyTimeout.toNat
  | _ => 0

/-- The most counted ticks until the running command finishes (41_exchange.md R185). -/
def ticksLeft (i : Instr) (s : State) : Nat :=
  match s.xstate with
  | .commandSent => s.dlCnt.toNat + waitTicks i s + secondExchange i s
  | .awaitingReply => s.dlCnt.toNat + secondExchange i s
  | _ => 0

/-- The error codes a class comes with (60_exceptions.md R251). -/
def classAllows (cls : ResultClass) (err : ErrCode) : Bool :=
  match cls with
  | .noResult => err == .noError
  | .ok => err == .noError
  | .timedOut => err == .noError
  | .negative => err == .noError
  | .malformed =>
    [ErrCode.checksumMismatch, .unterminatedFrame, .unexpectedLength, .headerMismatch, .badEscape, .unexpectedReply].contains err
  | .invalidArgument => [ErrCode.badOpcode, .badArgument, .badProfile, .termCollision].contains err
  | .ioFailure => [ErrCode.shortWrite, .txError].contains err

/-- The classes a command can finish with (60_exceptions.md R252). NONE stands for "not finished". -/
def canFinish (c : Option Instr) (cls : ResultClass) : Bool :=
  match c with
  | some .queryInv => cls != .negative
  | some (.hasSoda _) => cls != .negative
  | some (.awaitButton _) => cls != .negative
  | some (.vend _) => true
  | some (.readerEnable _) => [ResultClass.noResult, .ok, .invalidArgument, .ioFailure].contains cls
  | some (.readerDisable _) => [ResultClass.noResult, .ok, .invalidArgument, .ioFailure].contains cls
  | some (.setLed _) => [ResultClass.noResult, .ok, .invalidArgument, .ioFailure].contains cls
  | some (.setTracks _) => [ResultClass.noResult, .ok, .invalidArgument, .ioFailure].contains cls
  | some .awaitSwipe => [ResultClass.noResult, .ok, .timedOut, .invalidArgument].contains cls
  | some (.exchange _ shape _) =>
    if shape = .noReply then [ResultClass.noResult, .ok, .invalidArgument, .ioFailure].contains cls else cls != .negative
  | some (.encode _) => [ResultClass.noResult, .ok, .invalidArgument].contains cls
  | some (.decode _ _ _) => [ResultClass.noResult, .ok, .malformed, .invalidArgument].contains cls
  | some (.cksum _) => [ResultClass.noResult, .ok].contains cls
  | none => [ResultClass.noResult, .invalidArgument].contains cls

/-- The moves of STATUS.STATE in one cycle without reset (41_exchange.md R162), staying put included. -/
def moveAllowed : XState → XState → Bool
  | .commandSent, y => [XState.commandSent, .fatal, .awaitingReply, .repliedOk].contains y
  | .awaitingReply, y => [XState.awaitingReply, .repliedOk, .repliedError, .commandSent, .timedOut].contains y
  | x, y => x == y || [XState.idle, .commandSent, .awaitingReply].contains y

end Sys2Proof.Safety
end

