-- ==== Sys2Proof/Certificates/Slice0/Obligations.lean ====
section
/-! DEFINITION. The statements about SFC for the provers, each a formalisation of the rules its docstring cites. A cycle on given inputs is
`clockCycle inp s`; `step s` is `clockCycle s.nextInputs s`. -/

open Sys2Proof Sys2Proof.Machine Sys2Proof.Safety

/-! ## Encoding of command words (30_encoding.md) -/

/-- The example words of 30_encoding.md R108 are what the commands assemble to, and decode to those commands. -/
def Obligations.ExampleWordsAssemble : Prop :=
  ∀ p ∈ [(Instr.queryInv, 0x00000001#32), (.hasSoda 3, 0x00000302), (.awaitButton 1, 0x00000103),
      (.awaitButton 60, 0x00003C03), (.vend 2, 0x00000204), (.setLed 2, 0x00000212), (.awaitSwipe, 0x00000014),
      (.exchange .p1 .sentinel 0, 0x00030020), (.exchange .p0 .fixed 3, 0x03000020),
      (.exchange .p1 .noReply 0, 0x00070020), (.encode .p1, 0x00010021), (.decode .p1 .sentinel 0, 0x00030022),
      (.decode .p0 .fixed 3, 0x03000022), (.cksum .p1, 0x00010023)],
    encode p.1 = p.2 ∧ decodeWord p.2 = .ok p.1

/-- Decoding the assembled word of a well-formed command gives it back (30_encoding.md R90, R91, R106). -/
def Obligations.DecodeOfEncode : Prop :=
  ∀ i : Instr, i.WellFormed → decodeWord (encode i) = .ok i

/-- A word that decodes, decodes to a well-formed command that keeps every bit the command uses and drops the others
(30_encoding.md R91, R95, R97). -/
def Obligations.DecodeKeepsUsedFields : Prop :=
  ∀ (w : Word) (i : Instr), decodeWord w = .ok i → i.WellFormed ∧ encode i = w &&& usedBits w

/-- Two words that differ only in ignored fields are the same command, and CMD reads back the whole word (30_encoding.md R97). -/
def Obligations.IgnoredFieldsHaveNoEffect : Prop :=
  (∀ w v : Word, w &&& usedBits w = v &&& usedBits v → commandOf w = commandOf v)
    ∧ (∀ w v : Word, w &&& 0xFF07FFFF = v &&& 0xFF07FFFF → decodeWord w = decodeWord v)
    ∧ ∀ (s t : State) (inp : Inputs) (v : Word), inp.rst = false → s.busy = false →
        clockCycle { inp with bus := .write 0x010 v } s = .next t → busRead t 0x010 = v

/-- A word is illegal exactly when its OP is not in the opcode map; written to CMD of a machine that is not busy it is accepted,
sends nothing and finishes in its issue cycle INVALID_ARGUMENT / BAD_OPCODE (30_encoding.md R98). -/
def Obligations.ReservedOpcodeFinishes : Prop :=
  (∀ w : Word, (∃ i, decodeWord w = .ok i) ↔ w.extractLsb' 0 8 ∈ opcodes)
    ∧ ∀ (s : State) (inp : Inputs) (v : Word), v.extractLsb' 0 8 ∉ opcodes → inp.rst = false → s.busy = false →
        inp.rx = none → inp.bus = .write 0x010 v →
        ∃ t, clockCycle inp s = .next t
          ∧ Finishes .invalidArgument .badOpcode 0 .idle none (opened { begun inp s with cmd := v }) t
          ∧ t.txValid = false

/-! ## The frame codec (40_codec.md) -/

/-- The checksum's properties (40_codec.md R123): (a) one changed byte is always caught; (b) the same change in two bytes cancels;
(c) inserted bytes are missed exactly when they XOR to 0; (d) P1's seed is the XOR of its header; (e) every checksum value
is taken for every seed, and the empty payload's is the seed. -/
def Obligations.ChecksumDetectsOneByte : Prop :=
  (∀ (p : Profile) (payload : List Byte) (i : Nat) (b : Byte), i < payload.length → payload[i]? ≠ some b →
      checksum p (payload.set i b) ≠ checksum p payload)
    ∧ (∀ (p : Profile) (payload : List Byte) (i j : Nat) (d : Byte), i < j → j < payload.length →
        checksum p ((payload.set i (payload.getD i 0 ^^^ d)).set j (payload.getD j 0 ^^^ d)) = checksum p payload)
    ∧ (∀ (p : Profile) (before added after : List Byte),
        checksum p (before ++ added ++ after) = checksum p (before ++ after) ↔ xorfold 0 added = 0)
    ∧ (∀ payload : List Byte,
        xorfold 0 ([0x60, 0x00] ++ payload ++ [checksum Profile.resetP1 payload]) = 0)
    ∧ ∀ seed : Byte, xorfold seed [] = seed ∧ ∀ v : Byte, ∃ payload, xorfold seed payload = v

/-- Under a valid profile Unstuff inverts Stuff, and with escaping on stuffed bytes hold no terminator (40_codec.md R125 (a), and (b) narrowed
to ESC_EN = 1: that narrowing is the model's reading, DEDUCED, log entry 12). -/
def Obligations.UnstuffInvertsStuff : Prop :=
  ∀ (p : Profile) (bytes : List Byte), p.valid = true →
    unstuff p (stuff p bytes) = .ok bytes ∧ (p.escEn = true → p.term ∉ stuff p bytes)

/-- Stuffing at most doubles a list, and every frame of a payload within PMAX fits the frame buffer (40_codec.md R126). -/
def Obligations.FrameFitsBuffer : Prop :=
  (∀ (p : Profile) (bytes : List Byte),
      bytes.length ≤ (stuff p bytes).length ∧ (stuff p bytes).length ≤ 2 * bytes.length)
    ∧ ∀ (p : Profile) (payload frame : List Byte), payload.length ≤ Config.pmax → encodeFrame p payload = .ok frame →
        frame.length ≤ Config.fbufDepth

/-- The vending controller's command frames under P0 at reset (30_encoding.md R101). -/
def Obligations.VendingFramesBare : Prop :=
  encodeFrame Profile.resetP0 [charS] = .ok [0x53]
    ∧ encodeFrame Profile.resetP0 [charB] = .ok [0x42]
    ∧ ∀ (s : State) (k : Byte), k.toNat ≤ 7 →
        encodeFrame Profile.resetP0 (vendPayload k s) = .ok [0x56, if s.slotAscii then 0x30 + k else k]

/-- The stripe reader's frames under P1 at reset: 60 00, the payload, the LRC, 03; and the LRC is the same whether 00 counts as
header or as payload (30_encoding.md R102, its byte list). The listed bytes are k + 4 for a payload of k bytes: R102's sentence
"The frame is k + 5 bytes long" miscounts its own list, and the model follows the list (log entry 10). -/
def Obligations.StripeFrameLayout : Prop :=
  ∀ payload : List Byte, 0x03#8 ∉ payload → xorfold 0x60 payload ≠ 0x03 →
    encodeFrame Profile.resetP1 payload = .ok ([0x60, 0x00] ++ payload ++ [xorfold 0x60 payload, 0x03])
      ∧ ([0x60, 0x00] ++ payload ++ [xorfold 0x60 payload, 0x03] : List Byte).length = payload.length + 4
      ∧ xorfold 0x60 (0x00 :: payload) = xorfold 0x60 payload

/-- Decoding an encoded payload gives the payload (40_codec.md R137 (a)). -/
def Obligations.DecodeOfEncodeFrame : Prop :=
  ∀ (p : Profile) (payload frame : List Byte), p.valid = true → payload.length ≤ Config.pmax →
    encodeFrame p payload = .ok frame →
    decodeFrame p .fixed payload.length frame = .ok payload
      ∧ (p.termEn = true → decodeFrame p .sentinel 0 frame = .ok payload)

/-- The stream delimiter finds exactly the frame: complete after all of it, after no proper prefix (40_codec.md R137 (b)). -/
def Obligations.DelimiterFindsFrame : Prop :=
  ∀ (p : Profile) (payload frame : List Byte), p.valid = true → payload.length ≤ Config.pmax →
    encodeFrame p payload = .ok frame →
    frameComplete p (if p.termEn then .sentinel else .fixed) payload.length frame = true
      ∧ ∀ k : Nat, k < frame.length →
          frameComplete p (if p.termEn then .sentinel else .fixed) payload.length (frame.take k) = false

/-- One changed byte of a checksummed, terminated, unescaped frame: the decoder answers the error of the byte's role, never a payload
(40_codec.md R138). -/
def Obligations.TamperedFrameRejected : Prop :=
  ∀ (p : Profile) (payload frame : List Byte) (i : Nat) (b : Byte), p.valid = true → p.ckEn = true → p.termEn = true →
    p.escEn = false → payload.length ≤ Config.pmax → encodeFrame p payload = .ok frame → i < frame.length →
    frame[i]? ≠ some b →
    decodeFrame p .sentinel 0 (frame.set i b) =
      .error (if i + 1 = frame.length then .unterminatedFrame
        else if i < p.header.length then .headerMismatch else .checksumMismatch)

/-- The decoder accepts only frames of the encoder's form: header, stuffed payload and checksum, terminator; with a payload within PMAX
and of the shape's length (40_codec.md R136, R134, R135). -/
def Obligations.DecodeAcceptsOnlyFrames : Prop :=
  ∀ (p : Profile) (shape : Shape) (n : Nat) (bytes payload : List Byte), decodeFrame p shape n bytes = .ok payload →
    bytes = p.header ++ stuff p (payload ++ checkBytes p payload) ++ termBytes p
      ∧ payload.length ≤ Config.pmax
      ∧ (shape = .fixed → payload.length = n)
      ∧ (shape = .lenpfx → ∃ k rest, payload = k :: rest ∧ k.toNat = rest.length)

/-! ## Reset and the host port (10_state.md, 20_memory.md, 70_reset_and_hazards.md) -/

/-- After a cycle with rst = 1, whatever the state and the other inputs, every element holds its reset value and the outputs are low
(10_state.md R52). -/
def Obligations.ResetValues : Prop :=
  ∀ (s : State) (inp : Inputs), inp.rst = true → ∃ t, clockCycle inp s = .next t
    ∧ t.xstate = .idle ∧ t.done = false ∧ t.phase = false
    ∧ t.rxDrop = false ∧ t.cmdRej = false ∧ t.busErr = false ∧ t.wrRej = false
    ∧ busRead t 0x010 = 0x00000000 ∧ busRead t 0x014 = 0x00000000 ∧ busRead t 0x018 = 0x00000000
    ∧ busRead t 0x01C = 0x000003E8 ∧ busRead t 0x020 = 0x00000064
    ∧ t.txlen = 0 ∧ t.rxlen = 0 ∧ t.flen = 0 ∧ t.dlCnt = 0 ∧ t.txIdx = 0 ∧ t.swipeDisc = 0
    ∧ busRead t 0x040 = 0x00000000 ∧ busRead t 0x044 = 0x00201000
    ∧ busRead t 0x048 = 0x0300600E ∧ busRead t 0x04C = 0x00201060
    ∧ (∀ i : Nat, t.pbufTx.read i = 0 ∧ t.pbufRx.read i = 0 ∧ t.fbuf.read i = 0)
    ∧ t.txValid = false ∧ t.txByte = 0 ∧ t.irq = false

/-- The outputs of a cycle are functions of its start-of-cycle state; rdata also of the address, and it is 0 in a reset cycle
(10_state.md R25, 20_memory.md R71, 70_reset_and_hazards.md R280). In a cycle without reset a byte passes to the UART exactly when
tx_valid = 1, tx_ready = 1 and tx_err = 0. The reset cycle is left out of that clause: that no byte passes in it is the model's choice
(DESIGN CHOICE, log entry 2), as is that the outputs stand in the field out. -/
def Obligations.OutputsOfStartState : Prop :=
  ∀ (s t : State) (inp : Inputs), clockCycle inp s = .next t →
    t.out.txValid = decide (s.xstate = .commandSent)
      ∧ t.out.txByte = (if s.xstate = .commandSent then s.fbuf.read s.txIdx.toNat else 0)
      ∧ t.out.irq = (s.ie && s.done)
      ∧ (∀ a : Half, inp.bus = .read a → t.out.rdata = some (if inp.rst then 0 else busRead s a))
      ∧ (inp.rst = false →
          (t.out.sent = some t.out.txByte ↔ s.xstate = .commandSent ∧ inp.txReady = true ∧ inp.txErr = false)
            ∧ (t.out.sent = none ↔ ¬ (s.xstate = .commandSent ∧ inp.txReady = true ∧ inp.txErr = false)))

/-- No read has a side effect: a cycle with a read ends as the cycle without it, but for rdata (20_memory.md R71, R78). -/
def Obligations.ReadsChangeNothing : Prop :=
  ∀ (s t u : State) (inp : Inputs) (a : Half), clockCycle { inp with bus := .read a } s = .next t →
    clockCycle { inp with bus := .idle } s = .next u →
    t = { u with out := { u.out with rdata := t.out.rdata } }

/-- ID and CAPS are the same constants in every state: no write reaches them. CAPS holds the two depths, in the range of the instance's
parameters (10_state.md R27, R28; 00_scope.md R8, R9). -/
def Obligations.IdAndCapsAreConstant : Prop :=
  (∀ s : State, busRead s 0x000 = 0x53464301)
    ∧ (∀ s : State, ((busRead s 0x004).extractLsb' 0 16).toNat = Config.pmax
        ∧ ((busRead s 0x004).extractLsb' 16 16).toNat = Config.fbufDepth)
    ∧ 8 ≤ Config.pmax ∧ Config.pmax ≤ 509 ∧ Config.fbufDepth = 2 * Config.pmax + 5

/-- What the buffer windows read as, and that every address outside the map reads 0 (20_memory.md R71, R74, R75, R76; 10_state.md R47 to
R49). -/
def Obligations.WindowReads : Prop :=
  ∀ (s : State) (a : Half),
    (∀ i : Nat, i < Config.pmax → a.toNat = 0x1000 + 4 * i → busRead s a = (s.pbufTx.read i).setWidth 32)
      ∧ (∀ i : Nat, i < Config.pmax → a.toNat = 0x2000 + 4 * i →
          busRead s a = if i < s.rxlen.toNat then (s.pbufRx.read i).setWidth 32 else 0)
      ∧ (∀ i : Nat, i < Config.fbufDepth → a.toNat = 0x3000 + 4 * i → busRead s a = (s.fbuf.read i).setWidth 32)
      ∧ (a.toNat % 4 ≠ 0 ∨ unmapped a ∨ a = 0x00C → busRead s a = 0)

/-- What the registers but ID, CAPS and CTRL read as, in every state: STATUS, RESULT, CFG and the two profiles' FRAME and CODE as numbers, field by field
(10_state.md R29, R30, R34, R35, R36; 60_exceptions.md R250, R251); and the registers that hold one number: CMD, REPLY_TIMEOUT, SETTLE,
TXLEN, RXLEN, FLEN, DL_REM, TXIDX and SWIPE_DISC (10_state.md R33, R40 to R46, R50; 20_memory.md R71). ID and CAPS:
IdAndCapsAreConstant; CTRL: WindowReads. -/
def Obligations.StatusAndResultWords : Prop :=
  ∀ s : State,
    (busRead s 0x008).toNat =
        (match s.xstate with
          | .idle => 0 | .commandSent => 1 | .awaitingReply => 2 | .repliedOk => 3
          | .repliedError => 4 | .timedOut => 5 | .fatal => 6)
        + (if s.xstate = .commandSent ∨ s.xstate = .awaitingReply then 8 else 0)
        + (if s.done then 16 else 0) + (if s.phase then 32 else 0) + (if s.rxDrop then 256 else 0)
        + (if s.cmdRej then 512 else 0) + (if s.busErr then 1024 else 0) + (if s.wrRej then 2048 else 0)
      ∧ (busRead s 0x014).toNat =
        (match s.resClass with
          | .noResult => 0 | .ok => 1 | .timedOut => 2 | .malformed => 3 | .invalidArgument => 4
          | .ioFailure => 5 | .negative => 6)
        + 256 * (match s.resErr with
          | .noError => 0 | .checksumMismatch => 1 | .unterminatedFrame => 2 | .unexpectedLength => 3
          | .headerMismatch => 4 | .badEscape => 5 | .unexpectedReply => 6 | .badOpcode => 7 | .badArgument => 8
          | .badProfile => 9 | .termCollision => 10 | .shortWrite => 11 | .txError => 12)
        + 65536 * s.resValue.toNat
      ∧ busRead s 0x010 = s.cmd
      ∧ (busRead s 0x01C).toNat = s.replyTimeout.toNat ∧ (busRead s 0x020).toNat = s.settle.toNat
      ∧ (busRead s 0x024).toNat = s.txlen.toNat ∧ (busRead s 0x028).toNat = s.rxlen.toNat
      ∧ (busRead s 0x02C).toNat = s.flen.toNat ∧ (busRead s 0x030).toNat = s.dlCnt.toNat
      ∧ (busRead s 0x034).toNat = s.txIdx.toNat ∧ (busRead s 0x038).toNat = s.swipeDisc.toNat
      ∧ (busRead s 0x018).toNat =
        (if s.ie then 1 else 0) + (if s.swipeFramed then 2 else 0) + (if s.slotAscii then 4 else 0)
      ∧
        let frame (p : Profile) : Nat :=
          p.hdrLen.toNat + (if p.ckEn then 4 else 0) + (if p.termEn then 8 else 0) + (if p.escEn then 16 else 0)
            + 256 * p.hdr0.toNat + 65536 * p.hdr1.toNat + 16777216 * p.term.toNat
        let code (p : Profile) : Nat := p.seed.toNat + 256 * p.esc.toNat + 65536 * p.mask.toNat
        (busRead s 0x040).toNat = frame s.p0 ∧ (busRead s 0x044).toNat = code s.p0
          ∧ (busRead s 0x048).toNat = frame s.p1 ∧ (busRead s 0x04C).toNat = code s.p1

/-- A write to a misaligned, unmapped or read-only address stores nothing and sets BUS_ERR: the cycle ends as the cycle without it, with
BUS_ERR set (20_memory.md R75, R76). -/
def Obligations.BadWritesSetBusErr : Prop :=
  ∀ (s t u : State) (inp : Inputs) (a : Half) (v : Word), inp.rst = false →
    a.toNat % 4 ≠ 0 ∨ unmapped a ∨ readOnly a →
    clockCycle { inp with bus := .write a v } s = .next t → clockCycle { inp with bus := .idle } s = .next u →
    t = { u with busErr := true }

/-- Refused writes (20_memory.md R77): while busy, a write to a locked address sets WR_REJ and nothing else; an FCLR is refused while
the write's other bits act; TXLEN above PMAX and FLEN above FBUF_DEPTH are refused; TXLEN in range and PBUF_TX are accepted
while busy; a CMD write while busy sets CMD_REJ and not WR_REJ. That a refused FCLR in the same write as a FLAGCLR leaves WR_REJ set
rests on the order of log entry 7. The other CTRL bits while busy: CtrlActions. -/
def Obligations.RefusedWrites : Prop :=
  ∀ (s t u : State) (inp : Inputs) (a : Half) (v : Word), inp.rst = false →
    clockCycle { inp with bus := .write a v } s = .next t → clockCycle { inp with bus := .idle } s = .next u →
    (s.busy = true → lockedWhileBusy a → t = { u with wrRej := true })
      ∧ (s.busy = true → a = 0x00C → v.getLsbD 2 = true →
          t.wrRej = true ∧ t.flen = u.flen ∧ t.txlen = (if v.getLsbD 3 then 0 else u.txlen)
            ∧ (v.getLsbD 1 = false → t.rxDrop = u.rxDrop ∧ t.swipeDisc = u.swipeDisc)
            ∧ (v.getLsbD 1 = true → t.cmdRej = false ∧ t.busErr = false))
      ∧ (a = 0x024 → Config.pmax < (v.extractLsb' 0 16).toNat → t = { u with wrRej := true })
      ∧ (a = 0x02C → Config.fbufDepth < (v.extractLsb' 0 16).toNat → t = { u with wrRej := true })
      ∧ (a = 0x024 → (v.extractLsb' 0 16).toNat ≤ Config.pmax → t = { u with txlen := v.extractLsb' 0 16 })
      ∧ (∀ i : Nat, i < Config.pmax → a.toNat = 0x1000 + 4 * i →
          t = { u with pbufTx := u.pbufTx.write i (v.extractLsb' 0 8) })
      ∧ (s.busy = true → a = 0x010 → t = { u with cmdRej := true })

/-- What a register or a buffer entry written on a machine that is not busy reads back as: its stored bits, reserved bits 0 (10_state.md
R33, R35, R36, R40, R41, R42, R44, R47, R49, R51). -/
def Obligations.WriteReadsBack : Prop :=
  ∀ (s t : State) (inp : Inputs) (a : Half) (v : Word), inp.rst = false → s.busy = false →
    s.pbufTx.wf = true → s.fbuf.wf = true → clockCycle { inp with bus := .write a v } s = .next t →
    (∀ p ∈ [(0x010#16, 0xFFFFFFFF#32), (0x018, 0x00000007), (0x01C, 0x0000FFFF), (0x020, 0x0000FFFF),
        (0x040, 0xFFFFFF1F), (0x044, 0x00FFFFFF), (0x048, 0xFFFFFF1F), (0x04C, 0x00FFFFFF)],
      a = p.1 → busRead t a = v &&& p.2)
      ∧ (a = 0x024 → (v.extractLsb' 0 16).toNat ≤ Config.pmax → busRead t a = v &&& 0x0000FFFF)
      ∧ (a = 0x02C → (v.extractLsb' 0 16).toNat ≤ Config.fbufDepth → busRead t a = v &&& 0x0000FFFF)
      ∧ (∀ i : Nat, i < Config.pmax → a.toNat = 0x1000 + 4 * i → busRead t a = v &&& 0x000000FF)
      ∧ (∀ i : Nat, i < Config.fbufDepth → a.toNat = 0x3000 + 4 * i → busRead t a = v &&& 0x000000FF)

/-- A write of CFG, REPLY_TIMEOUT, SETTLE, FLEN in range, a profile register or an FBUF entry on a machine that is not busy stores its value
and changes nothing else: the cycle ends as the cycle without it, with the value stored (20_memory.md R72, R78; 10_state.md R35, R36,
R40, R41, R44, R49). For TXLEN and PBUF_TX, RefusedWrites says so, for CMD, the commands' own statements. -/
def Obligations.WritesStoreNothingElse : Prop :=
  ∀ (s t u : State) (inp : Inputs) (a : Half) (v : Word), inp.rst = false → s.busy = false →
    clockCycle { inp with bus := .write a v } s = .next t → clockCycle { inp with bus := .idle } s = .next u →
    (a = 0x018 → t = { u with ie := v.getLsbD 0, swipeFramed := v.getLsbD 1, slotAscii := v.getLsbD 2 })
      ∧ (a = 0x01C → t = { u with replyTimeout := v.extractLsb' 0 16 })
      ∧ (a = 0x020 → t = { u with settle := v.extractLsb' 0 16 })
      ∧ (a = 0x02C → (v.extractLsb' 0 16).toNat ≤ Config.fbufDepth → t = { u with flen := v.extractLsb' 0 16 })
      ∧ (a = 0x040 ∨ a = 0x048 →
          let stored (p : Profile) : Profile :=
            { p with
              hdrLen := v.extractLsb' 0 2, ckEn := v.getLsbD 2, termEn := v.getLsbD 3, escEn := v.getLsbD 4
              hdr0 := v.extractLsb' 8 8, hdr1 := v.extractLsb' 16 8, term := v.extractLsb' 24 8 }
          t = if a = 0x040 then { u with p0 := stored u.p0 } else { u with p1 := stored u.p1 })
      ∧ (a = 0x044 ∨ a = 0x04C →
          let stored (p : Profile) : Profile :=
            { p with seed := v.extractLsb' 0 8, esc := v.extractLsb' 8 8, mask := v.extractLsb' 16 8 }
          t = if a = 0x044 then { u with p0 := stored u.p0 } else { u with p1 := stored u.p1 })
      ∧ (∀ i : Nat, i < Config.fbufDepth → a.toNat = 0x3000 + 4 * i →
          t = { u with fbuf := u.fbuf.write i (v.extractLsb' 0 8) })

/-- CTRL: one action for each bit, and nothing else (10_state.md R31, R32; 20_memory.md R77). First on a machine that is not busy, in a cycle
without a received byte. Then in every cycle without reset, busy or not, against the cycle without the write: TXCLR acts always, FCLR and
DONECLR unless busy (while busy DONE is 0, a part of RunInv), a refused FCLR sets WR_REJ, and FLAGCLR clears the sticky flags and
SWIPE_DISC but for what the cycle itself sets: the byte it drops, the buffer it discards, the FCLR it refuses (the order of log
entry 7). -/
def Obligations.CtrlActions : Prop :=
  (∀ (s : State) (inp : Inputs) (v : Word), inp.rst = false → s.busy = false → inp.rx = none → inp.bus = .write 0x00C v →
    clockCycle inp s = .next { begun inp s with
      done := s.done && !v.getLsbD 0
      rxDrop := s.rxDrop && !v.getLsbD 1
      cmdRej := s.cmdRej && !v.getLsbD 1
      busErr := s.busErr && !v.getLsbD 1
      wrRej := s.wrRej && !v.getLsbD 1
      swipeDisc := if v.getLsbD 1 then 0 else s.swipeDisc
      flen := if v.getLsbD 2 then 0 else s.flen
      txlen := if v.getLsbD 3 then 0 else s.txlen })
    ∧ ∀ (s t u : State) (inp : Inputs) (v : Word), inp.rst = false → (s.busy = true → s.done = false) →
        clockCycle { inp with bus := .write 0x00C v } s = .next t → clockCycle { inp with bus := .idle } s = .next u →
        t = { u with
          done := u.done && (s.busy || !v.getLsbD 0)
          rxDrop := if v.getLsbD 1 then byteDropped inp s else u.rxDrop
          cmdRej := u.cmdRej && !v.getLsbD 1
          busErr := u.busErr && !v.getLsbD 1
          wrRej := (u.wrRej && !v.getLsbD 1) || (s.busy && v.getLsbD 2)
          swipeDisc := if v.getLsbD 1 then (if swipeDiscarded inp s then 1 else 0) else u.swipeDisc
          flen := if v.getLsbD 2 && !s.busy then 0 else u.flen
          txlen := if v.getLsbD 3 then 0 else u.txlen }

/-- The sticky flags and SWIPE_DISC in every cycle without reset: each is cleared by CTRL.FLAGCLR alone, is set or counted up by its own
events, and what the cycle sets wins over the clear (60_exceptions.md R258, 10_state.md R31; 20_memory.md R75 to R77; 41_exchange.md
R163, R180; 43_stripe.md R238). A refused FCLR counts as an event of its cycle (log entry 7). -/
def Obligations.StickyFlagsStay : Prop :=
  ∀ (s t : State) (inp : Inputs), inp.rst = false → clockCycle inp s = .next t →
    (t.rxDrop = true ↔ (s.rxDrop = true ∧ flagsCleared inp.bus = false) ∨ byteDropped inp s = true)
      ∧ (t.cmdRej = true ↔ (s.cmdRej = true ∧ flagsCleared inp.bus = false)
          ∨ (s.busy = true ∧ ∃ v, inp.bus = .write 0x010 v))
      ∧ (t.busErr = true ↔ (s.busErr = true ∧ flagsCleared inp.bus = false)
          ∨ ∃ a v, inp.bus = .write a v ∧ badWrite a)
      ∧ (t.wrRej = true ↔ (s.wrRej = true ∧ flagsCleared inp.bus = false)
          ∨ ∃ a v, inp.bus = .write a v ∧ refusedWrite s a v)
      ∧ t.swipeDisc =
          (let n := if flagsCleared inp.bus then 0 else s.swipeDisc
           if swipeDiscarded inp s then (if n = 0xFFFF then 0xFFFF else n + 1) else n)

/-! ## The machine as a whole (41_exchange.md, 60_exceptions.md) -/

/-- A cycle whose host access writes a command word to CMD of a machine that is not busy runs that command, on the state with the word
latched, a received byte dropped, and the cycle's bookkeeping done (41_exchange.md R160, R163, R165). Where a step takes its inputs from
is the model's choice (log entry 1). -/
def Obligations.StepRunsCommand : Prop :=
  ∀ (s : State) (inp : Inputs) (v : Word) (i : Instr), s.nextInputs = inp → inp.rst = false →
    inp.bus = .write 0x010 v → s.busy = false → decodeWord v = .ok i →
    step s = exec i { begun inp s with cmd := v, rxDrop := s.rxDrop || inp.rx.isSome }

/-- Every step answers a next state: SFC takes no traps and has no undefined behaviour (60_exceptions.md R265; log entry 8). -/
def Obligations.EveryStepGoesOn : Prop := ∀ s : State, ∃ t, step s = .next t

/-- The invariant of a run holds after reset. -/
def Obligations.InvHoldsAtReset : Prop := RunInv State.reset

/-- Every step keeps the invariant of a run: canonical buffers within their depths, lengths in range, DONE and RESULT clear while busy,
a running deadline, a checked command, room for the next byte (10_state.md R42 to R44, 41_exchange.md R178 and R179,
60_exceptions.md R253 and R256). -/
def Obligations.StepKeepsInv : Prop := ∀ s t : State, RunInv s → step s = .next t → RunInv t

/-- Without reset, STATUS.STATE moves only along the table of 41_exchange.md R162. -/
def Obligations.StateMovesByTable : Prop :=
  ∀ (s t : State) (inp : Inputs), RunInv s → inp.rst = false → clockCycle inp s = .next t →
    moveAllowed s.xstate t.xstate = true

/-- RESULT.ERR is always a code that comes with RESULT.CLASS (60_exceptions.md R251). -/
def Obligations.ErrorCodeFitsClass : Prop :=
  classAllows State.reset.resClass State.reset.resErr = true
    ∧ ∀ s t : State, classAllows s.resClass s.resErr = true → step s = .next t → classAllows t.resClass t.resErr = true

/-- RESULT.CLASS is always one the command in CMD can finish with (60_exceptions.md R252). -/
def Obligations.ClassFitsCommand : Prop :=
  canFinish State.reset.command State.reset.resClass = true
    ∧ ∀ s t : State, RunInv s → canFinish s.command s.resClass = true → step s = .next t →
        canFinish t.command t.resClass = true

/-- Phase 1 begins only in a cycle that completes an inventory reply whose bitmap holds stock in the vend's slot; so an empty slot never
leads to a vend frame (42_vending.md R212, R214). -/
def Obligations.VendOnlyWhenStocked : Prop :=
  ∀ (s t : State) (inp : Inputs), clockCycle inp s = .next t → s.phase = false → t.phase = true →
    ∃ (slot b : Byte) (payload : List Byte) (bitmap : Byte),
      s.command = some (.vend slot) ∧ s.xstate = .awaitingReply ∧ inp.rx = some b
        ∧ decodeFrame s.p0 .fixed 3 (s.frameBytes ++ [b]) = .ok payload ∧ invBitmap payload = some bitmap
        ∧ bitmap.getLsbD slot.toNat = true ∧ t.xstate = .commandSent

/-- The running command's remaining ticks never grow, and each ticking cycle takes at least one, until the command finishes; and a command
starts with at most the ticks of 41_exchange.md R185. -/
def Obligations.TicksLeftRunDown : Prop :=
  (∀ (s t : State) (inp : Inputs) (i : Instr), RunInv s → inp.rst = false → s.busy = true → s.command = some i →
      clockCycle inp s = .next t →
      t.busy = false ∨ (t.command = some i ∧ ticksLeft i t + (if inp.tick then 1 else 0) ≤ ticksLeft i s))
    ∧ ∀ (s t : State) (i : Instr), exec i s = .next t → t.busy = true → s.busy = false →
        ticksLeft i t ≤
          match i with
          | .vend _ => 2 * (s.replyTimeout.toNat + s.replyTimeout.toNat)
          | .awaitSwipe => s.replyTimeout.toNat
          | _ => s.replyTimeout.toNat + waitTicks i s

/-- While SFC is busy, no cycle without reset changes CMD or the configuration a running exchange reads (20_memory.md R77, R84;
41_exchange.md R163). -/
def Obligations.BusyKeepsConfiguration : Prop :=
  ∀ (s t : State) (inp : Inputs), s.busy = true → inp.rst = false → clockCycle inp s = .next t →
    t.cmd = s.cmd ∧ t.p0 = s.p0 ∧ t.p1 = s.p1 ∧ t.replyTimeout = s.replyTimeout ∧ t.settle = s.settle
      ∧ t.ie = s.ie ∧ t.swipeFramed = s.swipeFramed ∧ t.slotAscii = s.slotAscii

/-- While SFC is busy, PBUF_TX and TXLEN do not matter: two machines that differ only there stay equal everywhere else and show the same
outputs on the line and the interrupt (20_memory.md R84, 10_state.md R42, R47). -/
def Obligations.TxBufferNotReadWhileBusy : Prop :=
  ∀ (s t t' : State) (inp : Inputs) (m : Memory) (k : Half), s.busy = true → inp.rst = false →
    clockCycle inp s = .next t → clockCycle inp { s with pbufTx := m, txlen := k } = .next t' →
    t' = { t with pbufTx := t'.pbufTx, txlen := t'.txlen, out := { t.out with rdata := t'.out.rdata } }

/-- A byte that arrives in a cycle whose start state is not AWAITING_REPLY, or is AWAITING_REPLY in SETTLE mode, is discarded and sets
RX_DROP: the cycle ends as the cycle without it, with RX_DROP set (41_exchange.md R180). -/
def Obligations.StrayByteDropped : Prop :=
  ∀ (s t u : State) (inp : Inputs) (b : Byte), inp.rst = false →
    s.xstate ≠ .awaitingReply ∨ waitMode s.command = .settle →
    clockCycle { inp with rx := some b } s = .next t → clockCycle { inp with rx := none } s = .next u →
    t = { u with rxDrop := true }

/-- A machine that is not busy does nothing by itself: without a write, a byte or a reset, a cycle changes no state of SFC, ticks and UART
signals included, but for the model's own bookkeeping of log entries 1 and 2 (60_exceptions.md R255, R264). -/
def Obligations.IdleDoesNothing : Prop :=
  ∀ (s : State) (inp : Inputs), inp.rst = false → s.busy = false → inp.rx = none → inp.bus = .idle →
    clockCycle inp s = .next (begun inp s)

/-- The transmitter (41_exchange.md R174, R175, R176, R183 (a), (b)), in a cycle without host access or received byte: tx_err ends the command
FATAL; a handshake passes the byte at TX_IDX and moves on; the last byte starts the wait with its deadline, or ends a command whose
settle delay is 0. A tick in the cycle of the error or of the last byte is not counted; in any other it is. -/
def Obligations.TransmitHandsOff : Prop :=
  ∀ (s : State) (inp : Inputs) (i : Instr), inp.rst = false → inp.bus = .idle → inp.rx = none →
    s.xstate = .commandSent → s.command = some i → ready i s = true → i ≠ .awaitSwipe →
    (inp.txErr = true → ∃ t, clockCycle inp s = .next t
        ∧ Finishes .ioFailure .txError (commandFailValue i) .fatal none (begun inp s) t)
      ∧ (inp.txErr = false → inp.txReady = true →
          (s.txIdx + 1 ≠ s.flen → ∃ t, clockCycle inp s = .next t
              ∧ TickCounted inp.tick i { begun inp s with txIdx := s.txIdx + 1 } t)
            ∧ (s.txIdx + 1 = s.flen → commandWaitMode i = .settle → s.settle = 0 → ∃ t, clockCycle inp s = .next t
                ∧ Finishes .ok .noError 0 .repliedOk none { begun inp s with txIdx := s.txIdx + 1, flen := 0 } t)
            ∧ (s.txIdx + 1 = s.flen → commandWaitMode i ≠ .settle ∨ s.settle ≠ 0 →
                clockCycle inp s = .next { begun inp s with
                  txIdx := s.txIdx + 1, flen := 0, xstate := .awaitingReply, dlCnt := BitVec.ofNat 16 (waitTicks i s) }))
      ∧ (inp.txErr = false → inp.txReady = false → ∃ t, clockCycle inp s = .next t ∧ TickCounted inp.tick i (begun inp s) t)

/-- The timeout arbiter (41_exchange.md R160, R178), in a busy cycle with nothing else to do: awaiting a reply without a received byte, whatever
the UART's transmit signals are, or sending with tx_err and tx_ready low. Without a tick nothing changes but the model's own
bookkeeping (log entries 1 and 2); with one the deadline counts down, and at its last tick, and at no other time, the command ends, by state and wait mode. -/
def Obligations.TickCountsDeadline : Prop :=
  ∀ (s : State) (inp : Inputs) (i : Instr), inp.rst = false → inp.bus = .idle → inp.rx = none →
    s.command = some i → ready i s = true →
    s.xstate = .awaitingReply ∨ (s.xstate = .commandSent ∧ inp.txErr = false ∧ inp.txReady = false) →
    (inp.tick = false → clockCycle inp s = .next (begun inp s))
      ∧ (inp.tick = true → 1 < s.dlCnt.toNat → clockCycle inp s = .next { begun inp s with dlCnt := s.dlCnt - 1 })
      ∧ (inp.tick = true → s.dlCnt.toNat ≤ 1 → ∃ t, clockCycle inp s = .next t
          ∧ (s.xstate = .commandSent →
              Finishes .ioFailure .shortWrite (commandFailValue i) .fatal none { begun inp s with dlCnt := 0 } t)
          ∧ (s.xstate = .awaitingReply → commandWaitMode i = .settle →
              Finishes .ok .noError 0 .repliedOk none { begun inp s with dlCnt := 0 } t)
          ∧ (s.xstate = .awaitingReply → commandWaitMode i ≠ .settle →
              Finishes .timedOut .noError (commandFailValue i) .timedOut none { begun inp s with dlCnt := 0 } t))

/-! ## Replies (42_vending.md, 43_stripe.md, 41_exchange.md) -/

/-- QUERY_INV's and HAS_SODA's replies: the bitmap, or its bit ARG; a payload without a bitmap is MALFORMED / UNEXPECTED_REPLY
(42_vending.md R204, R207). -/
def Obligations.InventoryReply : Prop :=
  ∀ (s : State) (inp : Inputs) (b : Byte) (payload : List Byte), bringsByte inp b s → s.pbufRx.wf = true →
    frameComplete s.p0 .fixed 3 (s.frameBytes ++ [b]) = true →
    decodeFrame s.p0 .fixed 3 (s.frameBytes ++ [b]) = .ok payload →
    (s.command = some .queryInv → ∃ t, clockCycle inp s = .next t ∧
        match invBitmap payload with
        | some bitmap => Finishes .ok .noError bitmap .repliedOk (some payload) (received inp b s) t
        | none => Finishes .malformed .unexpectedReply 0 .repliedError none (received inp b s) t)
      ∧ ∀ slot : Byte, s.command = some (.hasSoda slot) → ∃ t, clockCycle inp s = .next t ∧
        match invBitmap payload with
        | some bitmap =>
          Finishes .ok .noError (if bitmap.getLsbD slot.toNat then 1 else 0) .repliedOk (some payload) (received inp b s) t
        | none => Finishes .malformed .unexpectedReply 0 .repliedError none (received inp b s) t

/-- InvBitmap: the echo, then two hex digits of either case, high nibble first; nothing else has a bitmap (42_vending.md R201). -/
def Obligations.HexPairBitmap : Prop :=
  (∀ h l : Byte, h.toNat < 16 → l.toNat < 16 →
      ∀ hi ∈ (if h.toNat < 10 then [0x30 + h] else [0x37 + h, 0x57 + h]),
      ∀ lo ∈ (if l.toNat < 10 then [0x30 + l] else [0x37 + l, 0x57 + l]),
        invBitmap [0x53, hi, lo] = some (h * 16 + l))
    ∧ ∀ (payload : List Byte) (bitmap : Byte), invBitmap payload = some bitmap →
        ∃ h l hi lo : Byte, h.toNat < 16 ∧ l.toNat < 16 ∧ payload = [0x53, hi, lo] ∧ bitmap = h * 16 + l
          ∧ hi ∈ (if h.toNat < 10 then [0x30 + h] else [0x37 + h, 0x57 + h])
          ∧ lo ∈ (if l.toNat < 10 then [0x30 + l] else [0x37 + l, 0x57 + l])

/-- AWAIT_BUTTON's reply: the button byte, raw, with the payload (42_vending.md R209). -/
def Obligations.ButtonReply : Prop :=
  ∀ (s : State) (inp : Inputs) (b secs : Byte) (payload : List Byte), bringsByte inp b s → s.pbufRx.wf = true →
    s.command = some (.awaitButton secs) → frameComplete s.p0 .fixed 1 (s.frameBytes ++ [b]) = true →
    decodeFrame s.p0 .fixed 1 (s.frameBytes ++ [b]) = .ok payload →
    ∃ (t : State) (button : Byte), clockCycle inp s = .next t ∧ payload = [button]
      ∧ Finishes .ok .noError button .repliedOk (some [button]) (received inp b s) t

/-- VEND's phase-0 reply: no bitmap is MALFORMED, an empty slot EMPTY, and stock starts phase 1 with the vend frame in the same cycle,
whose tick is not counted (42_vending.md R214). -/
def Obligations.VendInventoryReply : Prop :=
  ∀ (s : State) (inp : Inputs) (b slot : Byte) (payload frame : List Byte), bringsByte inp b s → s.pbufRx.wf = true →
    s.fbuf.wf = true → s.command = some (.vend slot) → s.phase = false →
    frameComplete s.p0 .fixed 3 (s.frameBytes ++ [b]) = true →
    decodeFrame s.p0 .fixed 3 (s.frameBytes ++ [b]) = .ok payload →
    encodeFrame s.p0 [0x56, if s.slotAscii then 0x30 + slot else slot] = .ok frame →
    ∃ t, clockCycle inp s = .next t ∧
      match invBitmap payload with
      | none => Finishes .malformed .unexpectedReply 3 .repliedError none (received inp b s) t
      | some bitmap =>
        if bitmap.getLsbD slot.toNat then StartsSending frame true (received inp b s) t
        else Finishes .ok .noError 2 .repliedOk (some payload) (received inp b s) t

/-- VEND's phase-1 reply: the letter Y is SUCCESS; any other byte is NEGATIVE with VALUE 3, ERROR (42_vending.md R213). -/
def Obligations.VendConfirmReply : Prop :=
  ∀ (s : State) (inp : Inputs) (b slot : Byte) (payload : List Byte), bringsByte inp b s → s.pbufRx.wf = true →
    s.command = some (.vend slot) → s.phase = true → frameComplete s.p0 .fixed 1 (s.frameBytes ++ [b]) = true →
    decodeFrame s.p0 .fixed 1 (s.frameBytes ++ [b]) = .ok payload →
    ∃ t, clockCycle inp s = .next t ∧
      if payload = [0x59] then Finishes .ok .noError 1 .repliedOk (some payload) (received inp b s) t
      else Finishes .negative .noError 3 .repliedError (some payload) (received inp b s) t

/-- EXCHANGE's reply (41_exchange.md R179, R181): each byte is stored; a complete frame finishes OK with its payload or MALFORMED with the
decoder's code; an exhausted byte budget finishes MALFORMED, all without counting the cycle's tick; otherwise SFC goes on waiting and the
tick is counted. -/
def Obligations.ExchangeReply : Prop :=
  ∀ (s : State) (inp : Inputs) (b : Byte) (psel : ProfileSel) (shape : Shape) (len : Byte), bringsByte inp b s →
    s.pbufRx.wf = true → s.command = some (.exchange psel shape len) → shape ≠ .noReply →
    ∃ t, clockCycle inp s = .next t ∧
      if frameComplete (s.profile psel) shape len.toNat (s.frameBytes ++ [b]) then
        match decodeFrame (s.profile psel) shape len.toNat (s.frameBytes ++ [b]) with
        | .ok payload => Finishes .ok .noError 0 .repliedOk (some payload) (received inp b s) t
        | .error code => Finishes .malformed code 0 .repliedError none (received inp b s) t
      else if s.flen.toNat + 1 = Config.fbufDepth then
        Finishes .malformed (if (s.profile psel).termEn then .unterminatedFrame else .unexpectedLength) 0 .repliedError none
          (received inp b s) t
      else TickCounted inp.tick (.exchange psel shape len) (received inp b s) t

/-- The vending commands' reply byte by byte (41_exchange.md R179): a complete frame that does not decode finishes MALFORMED with the
decoder's code, an exhausted byte budget MALFORMED too, both with VALUE 3 for VEND and 0 for the others (R171) and without counting the
cycle's tick; a byte that completes nothing is stored, SFC goes on waiting and the tick is counted. A payload goes to the command's own
reply statement. -/
def Obligations.VendingReplyBytes : Prop :=
  ∀ (s : State) (inp : Inputs) (b : Byte) (i : Instr) (n : Nat), bringsByte inp b s → s.command = some i →
    replyLength i s.phase = some n →
    let value : Byte := match i with
      | .vend _ => 3
      | _ => 0
    (∀ code, frameComplete s.p0 .fixed n (s.frameBytes ++ [b]) = true →
        decodeFrame s.p0 .fixed n (s.frameBytes ++ [b]) = .error code →
        ∃ t, clockCycle inp s = .next t ∧ Finishes .malformed code value .repliedError none (received inp b s) t)
      ∧ (frameComplete s.p0 .fixed n (s.frameBytes ++ [b]) = false → s.flen.toNat + 1 = Config.fbufDepth →
          ∃ t, clockCycle inp s = .next t
            ∧ Finishes .malformed (if s.p0.termEn then .unterminatedFrame else .unexpectedLength) value .repliedError none
                (received inp b s) t)
      ∧ (frameComplete s.p0 .fixed n (s.frameBytes ++ [b]) = false → s.flen.toNat + 1 ≠ Config.fbufDepth →
          ∃ t, clockCycle inp s = .next t ∧ TickCounted inp.tick i (received inp b s) t)

/-- The swipe listener on raw bytes (43_stripe.md R237, R238): at the terminator a card of at least the two sentinels and at most PMAX
bytes finishes OK with the card; anything else, and a full buffer, is discarded and counted, saturating, and listening goes on. A
tick in the cycle of a discard or of any byte but the card's last is counted. -/
def Obligations.RawSwipe : Prop :=
  ∀ (s : State) (inp : Inputs) (b : Byte), bringsByte inp b s → s.pbufRx.wf = true →
    s.command = some .awaitSwipe → s.swipeFramed = false →
    ∃ t, clockCycle inp s = .next t ∧
      if b = s.p1.term ∧ 2 ≤ s.flen.toNat ∧ s.flen.toNat ≤ Config.pmax ∧ s.fbuf.read 0 = 0x3B
          ∧ s.fbuf.read (s.flen.toNat - 1) = 0x3F then
        Finishes .ok .noError 0 .repliedOk (some s.frameBytes) (received inp b s) t
      else if b = s.p1.term ∨ s.flen.toNat + 1 = Config.fbufDepth then
        TickCounted inp.tick .awaitSwipe { received inp b s with
          flen := 0, swipeDisc := if s.swipeDisc = 0xFFFF then 0xFFFF else s.swipeDisc + 1 } t
      else TickCounted inp.tick .awaitSwipe (received inp b s) t

/-- The swipe listener on framed data (43_stripe.md R237): a complete P1 frame that decodes to a card finishes OK with the card; any other
complete frame, and a full buffer, is discarded and counted, and listening goes on. A tick is counted unless the card finishes the command. -/
def Obligations.FramedSwipe : Prop :=
  ∀ (s : State) (inp : Inputs) (b : Byte), bringsByte inp b s → s.pbufRx.wf = true →
    s.command = some .awaitSwipe → s.swipeFramed = true →
    ∃ t, clockCycle inp s = .next t ∧
      let discarded := { received inp b s with
        flen := 0, swipeDisc := if s.swipeDisc = 0xFFFF then 0xFFFF else s.swipeDisc + 1 }
      if frameComplete s.p1 .sentinel 0 (s.frameBytes ++ [b]) then
        match decodeFrame s.p1 .sentinel 0 (s.frameBytes ++ [b]) with
        | .ok card =>
          if 2 ≤ card.length ∧ card.length ≤ Config.pmax ∧ card.head? = some 0x3B ∧ card.getLast? = some 0x3F then
            Finishes .ok .noError 0 .repliedOk (some card) (received inp b s) t
          else TickCounted inp.tick .awaitSwipe discarded t
        | .error _ => TickCounted inp.tick .awaitSwipe discarded t
      else if s.flen.toNat + 1 = Config.fbufDepth then TickCounted inp.tick .awaitSwipe discarded t
      else TickCounted inp.tick .awaitSwipe (received inp b s) t

/-! ## The commands: what issuing each one does, and leaves alone -/

/-- QUERY_INV, HAS_SODA and VEND start with the inventory query: the frame of the letter S goes to FBUF and is sent, bounded by
REPLY_TIMEOUT; FBUF past it and every other element are unchanged (42_vending.md R203, R206, R212; 41_exchange.md R166). -/
def Obligations.InventoryQueryStarts : Prop :=
  ∀ (s : State) (frame : List Byte), s.fbuf.wf = true → s.p0.valid = true → s.replyTimeout ≠ 0 →
    encodeFrame s.p0 [0x53] = .ok frame →
    (∃ t, exec .queryInv s = .next t ∧ StartsSending frame false (opened s) t)
      ∧ (∀ slot : Byte, slot.toNat ≤ 7 → ∃ t, exec (.hasSoda slot) s = .next t ∧ StartsSending frame false (opened s) t)
      ∧ ∀ (slot : Byte) (vendFrame : List Byte), slot.toNat ≤ 7 →
          encodeFrame s.p0 [0x56, if s.slotAscii then 0x30 + slot else slot] = .ok vendFrame →
          ∃ t, exec (.vend slot) s = .next t ∧ StartsSending frame false (opened s) t

/-- AWAIT_BUTTON sends the letter B for 1 to 60 seconds (42_vending.md R208; 41_exchange.md R166). -/
def Obligations.AwaitButtonStarts : Prop :=
  ∀ (s : State) (secs : Byte) (frame : List Byte), s.fbuf.wf = true → s.p0.valid = true → s.replyTimeout ≠ 0 →
    1 ≤ secs.toNat → secs.toNat ≤ 60 → encodeFrame s.p0 [0x42] = .ok frame →
    ∃ t, exec (.awaitButton secs) s = .next t ∧ StartsSending frame false (opened s) t

/-- The vending commands' failing checks in the order of 41_exchange.md R164: profile, argument, timeout, frame. Nothing is sent: the
command finishes INVALID_ARGUMENT in IDLE, with VALUE 3 for VEND and 0 for the others (R171), and FBUF is not written. -/
def Obligations.VendingChecksInOrder : Prop :=
  ∀ (s : State) (slot secs : Byte),
    (s.p0.valid = false →
        (∃ t, exec .queryInv s = .next t ∧ Finishes .invalidArgument .badProfile 0 .idle none (opened s) t)
          ∧ (∃ t, exec (.hasSoda slot) s = .next t ∧ Finishes .invalidArgument .badProfile 0 .idle none (opened s) t)
          ∧ (∃ t, exec (.awaitButton secs) s = .next t ∧ Finishes .invalidArgument .badProfile 0 .idle none (opened s) t)
          ∧ ∃ t, exec (.vend slot) s = .next t ∧ Finishes .invalidArgument .badProfile 3 .idle none (opened s) t)
      ∧ (s.p0.valid = true → 7 < slot.toNat ∨ s.replyTimeout = 0 →
          (∃ t, exec (.hasSoda slot) s = .next t ∧ Finishes .invalidArgument .badArgument 0 .idle none (opened s) t)
            ∧ ∃ t, exec (.vend slot) s = .next t ∧ Finishes .invalidArgument .badArgument 3 .idle none (opened s) t)
      ∧ (s.p0.valid = true → secs = 0 ∨ 60 < secs.toNat ∨ s.replyTimeout = 0 →
          ∃ t, exec (.awaitButton secs) s = .next t ∧ Finishes .invalidArgument .badArgument 0 .idle none (opened s) t)
      ∧ (s.p0.valid = true → s.replyTimeout = 0 →
          ∃ t, exec .queryInv s = .next t ∧ Finishes .invalidArgument .badArgument 0 .idle none (opened s) t)
      ∧ (s.p0.valid = true → s.replyTimeout ≠ 0 → encodeFrame s.p0 [0x53] = .error .termCollision →
          (∃ t, exec .queryInv s = .next t ∧ Finishes .invalidArgument .termCollision 0 .idle none (opened s) t)
            ∧ (slot.toNat ≤ 7 →
                ∃ t, exec (.hasSoda slot) s = .next t ∧ Finishes .invalidArgument .termCollision 0 .idle none (opened s) t))
      ∧ (s.p0.valid = true → 1 ≤ secs.toNat → secs.toNat ≤ 60 → s.replyTimeout ≠ 0 →
          encodeFrame s.p0 [0x42] = .error .termCollision →
          ∃ t, exec (.awaitButton secs) s = .next t ∧ Finishes .invalidArgument .termCollision 0 .idle none (opened s) t)
      ∧ (s.p0.valid = true → slot.toNat ≤ 7 → s.replyTimeout ≠ 0 →
          encodeFrame s.p0 [0x53] = .error .termCollision
            ∨ encodeFrame s.p0 [0x56, if s.slotAscii then 0x30 + slot else slot] = .error .termCollision →
          ∃ t, exec (.vend slot) s = .next t ∧ Finishes .invalidArgument .termCollision 3 .idle none (opened s) t)

/-- READER_ENABLE, READER_DISABLE, SET_LED and SET_TRACKS send the template's frame under P1, for whatever template the instance has; each
failing check in order finishes INVALID_ARGUMENT with nothing sent (43_stripe.md R230 to R235; 41_exchange.md R164, R166). That an empty
frame of an empty template finishes BAD_ARGUMENT is the model's reading (DEDUCED, log entry 6). -/
def Obligations.StripeCommandsIssue : Prop :=
  ∀ (s : State) (arg : Byte), s.fbuf.wf = true →
    (∃ t, exec (.readerEnable arg) s = .next t ∧ StripeIssue 0x10 arg s t)
      ∧ (∃ t, exec (.readerDisable arg) s = .next t ∧ StripeIssue 0x11 arg s t)
      ∧ (∃ t, exec (.setLed arg) s = .next t ∧ StripeIssue 0x12 arg s t)
      ∧ ∃ t, exec (.setTracks arg) s = .next t ∧ StripeIssue 0x13 arg s t

/-- AWAIT_SWIPE sends nothing: it listens, bounded by REPLY_TIMEOUT, or fails its checks (43_stripe.md R236; 41_exchange.md R164, R168). -/
def Obligations.AwaitSwipeListens : Prop :=
  ∀ s : State,
    (s.p1.valid = true → s.p1.termEn = true → s.replyTimeout ≠ 0 →
        exec .awaitSwipe s = .next { opened s with
          flen := 0, txIdx := 0, dlCnt := s.replyTimeout, xstate := .awaitingReply })
      ∧ (s.p1.valid = false ∨ s.p1.termEn = false →
          ∃ t, exec .awaitSwipe s = .next t ∧ Finishes .invalidArgument .badProfile 0 .idle none (opened s) t)
      ∧ (s.p1.valid = true → s.p1.termEn = true → s.replyTimeout = 0 →
          ∃ t, exec .awaitSwipe s = .next t ∧ Finishes .invalidArgument .badArgument 0 .idle none (opened s) t)

/-- EXCHANGE sends the frame of PBUF_TX[0..TXLEN) under the selected profile, and leaves every other element alone
(41_exchange.md R184, R164, R166). -/
def Obligations.ExchangeStarts : Prop :=
  ∀ (s : State) (psel : ProfileSel) (shape : Shape) (len : Byte) (frame : List Byte), s.fbuf.wf = true →
    (s.profile psel).valid = true → s.replyTimeout ≠ 0 → s.txlen.toNat ≤ Config.pmax →
    (shape = .sentinel → (s.profile psel).termEn = true) → (shape = .fixed → len.toNat ≤ Config.pmax) →
    encodeFrame (s.profile psel) (s.pbufTx.load s.txlen.toNat) = .ok frame → frame ≠ [] →
    (shape = .fixed → (s.profile psel).termEn = false → 0 < (s.profile psel).header.length + len.toNat + (s.profile psel).ckLen) →
    ∃ t, exec (.exchange psel shape len) s = .next t ∧ StartsSending frame false (opened s) t

/-- EXCHANGE's failing checks in the order of 41_exchange.md R164. -/
def Obligations.ExchangeChecksInOrder : Prop :=
  ∀ (s : State) (psel : ProfileSel) (shape : Shape) (len : Byte), ∃ t, exec (.exchange psel shape len) s = .next t
    ∧ ((s.profile psel).valid = false → Finishes .invalidArgument .badProfile 0 .idle none (opened s) t)
    ∧ ((s.profile psel).valid = true →
        (shape = .sentinel ∧ (s.profile psel).termEn = false) ∨ (shape = .fixed ∧ Config.pmax < len.toNat)
          ∨ s.replyTimeout = 0 →
        Finishes .invalidArgument .badArgument 0 .idle none (opened s) t)
    ∧ ((s.profile psel).valid = true → (shape = .sentinel → (s.profile psel).termEn = true) →
        (shape = .fixed → len.toNat ≤ Config.pmax) → s.replyTimeout ≠ 0 →
        (encodeFrame (s.profile psel) (s.pbufTx.load s.txlen.toNat) = .error .termCollision →
            Finishes .invalidArgument .termCollision 0 .idle none (opened s) t)
          ∧ (encodeFrame (s.profile psel) (s.pbufTx.load s.txlen.toNat) = .ok [] →
              Finishes .invalidArgument .badArgument 0 .idle none (opened s) t)
          ∧ (∀ frame, encodeFrame (s.profile psel) (s.pbufTx.load s.txlen.toNat) = .ok frame → shape = .fixed →
              (s.profile psel).termEn = false →
              (s.profile psel).header.length + len.toNat + (s.profile psel).ckLen = 0 →
              Finishes .invalidArgument .badArgument 0 .idle none (opened s) t))

/-- ENCODE (40_codec.md R142): the frame goes to FBUF and its length to FLEN, the checksum byte (or 0) to VALUE; FBUF past the frame is
kept; on a bad profile or a collision FBUF and FLEN are unchanged. STATE is IDLE. -/
def Obligations.EncodeFillsFbuf : Prop :=
  ∀ (s : State) (psel : ProfileSel), s.fbuf.wf = true → s.txlen.toNat ≤ Config.pmax →
    ∃ t, exec (.encode psel) s = .next t ∧
      if (s.profile psel).valid = false then Finishes .invalidArgument .badProfile 0 .idle none (opened s) t
      else
        match encodeFrame (s.profile psel) (s.pbufTx.load s.txlen.toNat) with
        | .error _ => Finishes .invalidArgument .termCollision 0 .idle none (opened s) t
        | .ok frame =>
          Finishes .ok .noError
              (if (s.profile psel).ckEn then xorfold (s.profile psel).seed (s.pbufTx.load s.txlen.toNat) else 0) .idle none
              { opened s with flen := t.flen, fbuf := t.fbuf } t
            ∧ t.flen.toNat = frame.length
            ∧ ∀ a : Nat, t.fbuf.read a = if a < frame.length then frame.getD a 0 else s.fbuf.read a

/-- DECODE (40_codec.md R143): FBUF[0..FLEN) is validated; a payload goes to PBUF_RX, an error is MALFORMED with its code; FBUF and FLEN
never change. STATE is IDLE. -/
def Obligations.DecodeAnswersPayload : Prop :=
  ∀ (s : State) (psel : ProfileSel) (shape : Shape) (len : Byte), s.pbufRx.wf = true →
    ∃ t, exec (.decode psel shape len) s = .next t ∧
      if (s.profile psel).valid = false then Finishes .invalidArgument .badProfile 0 .idle none (opened s) t
      else if shape = .noReply ∨ (shape = .sentinel ∧ (s.profile psel).termEn = false)
          ∨ (shape = .fixed ∧ Config.pmax < len.toNat) then
        Finishes .invalidArgument .badArgument 0 .idle none (opened s) t
      else
        match decodeFrame (s.profile psel) shape len.toNat (s.fbuf.load s.flen.toNat) with
        | .error code => Finishes .malformed code 0 .idle none (opened s) t
        | .ok payload => Finishes .ok .noError 0 .idle (some payload) (opened s) t

/-- CKSUM (40_codec.md R141): VALUE is the seeded XOR of PBUF_TX[0..TXLEN), for every profile, a bad one included; nothing else but the
outcome changes. -/
def Obligations.CksumAnswersChecksum : Prop :=
  ∀ (s : State) (psel : ProfileSel), ∃ t, exec (.cksum psel) s = .next t
    ∧ Finishes .ok .noError (xorfold (s.profile psel).seed (s.pbufTx.load s.txlen.toNat)) .idle none (opened s) t
end

