-- ==== Sys2Proof/Laws/Codec.lean ====
section
/-! SUPPORT. The small laws of the frame codec's functions: what each answers, length and error code. -/

namespace Sys2Proof.Laws

open Sys2Proof.Machine Sys2Proof.Safety

/-! ## The checksum -/

@[simp] theorem xorfold_nil (seed : Byte) : xorfold seed [] = seed := rfl

@[simp] theorem xorfold_cons (seed b : Byte) (bytes : List Byte) : xorfold seed (b :: bytes) = xorfold (seed ^^^ b) bytes := rfl

theorem xorfold_append (seed : Byte) (xs ys : List Byte) : xorfold seed (xs ++ ys) = xorfold (xorfold seed xs) ys := by
  simp [xorfold]

/-- The seed comes out of the fold. -/
theorem xorfold_seed (seed : Byte) (bytes : List Byte) : xorfold seed bytes = seed ^^^ xorfold 0 bytes := by
  induction bytes generalizing seed with
  | nil => simp
  | cons b bs ih => simp only [xorfold_cons]; rw [ih (seed ^^^ b), ih (0 ^^^ b)]; simp [BitVec.xor_assoc]

/-! ## The parts of a frame -/

theorem header_length_le (p : Profile) : p.header.length ≤ 2 := by
  unfold Profile.header; split
  · simp
  · split <;> simp

@[simp] theorem checkBytes_length (p : Profile) (payload : List Byte) : (checkBytes p payload).length = p.ckLen := by
  unfold checkBytes Profile.ckLen; split <;> simp

@[simp] theorem termBytes_length (p : Profile) : (termBytes p).length = p.termLen := by
  unfold termBytes Profile.termLen; split <;> simp

theorem ckLen_le (p : Profile) : p.ckLen ≤ 1 := by unfold Profile.ckLen; split <;> simp

theorem termLen_le (p : Profile) : p.termLen ≤ 1 := by unfold Profile.termLen; split <;> simp

/-- Stuffing one byte gives one byte or two. -/
theorem stuffByte_length (p : Profile) (b : Byte) : 1 ≤ (stuffByte p b).length ∧ (stuffByte p b).length ≤ 2 := by
  unfold stuffByte; split <;> simp

/-- A frame that Encode answers is header, stuffed body, terminator. -/
theorem encodeFrame_ok {p : Profile} {payload frame : List Byte} (h : encodeFrame p payload = .ok frame) :
    frame = p.header ++ stuff p (payload ++ checkBytes p payload) ++ termBytes p
      ∧ (p.termEn = true → p.escEn = false → p.term ∉ payload ++ checkBytes p payload) := by
  unfold encodeFrame at h
  split at h
  · cases h
  · rename_i hc
    refine ⟨by simpa using h.symm, fun h1 h2 => ?_⟩
    simpa [h1, h2] using hc

/-! ## What Decode answers -/

theorem unstuffEsc_error (p : Profile) (bytes : List Byte) (code : ErrCode) (h : unstuffEsc p bytes = .error code) :
    code = .badEscape := by
  fun_induction unstuffEsc p bytes <;> simp_all

theorem unstuff_error (p : Profile) (bytes : List Byte) (code : ErrCode) (h : unstuff p bytes = .error code) :
    code = .badEscape := by
  unfold unstuff at h
  split at h
  · exact unstuffEsc_error p bytes code h
  · cases h

theorem checkBody_error (p : Profile) (body : List Byte) (code : ErrCode) (h : checkBody p body = .error code) :
    code = .unexpectedLength ∨ code = .checksumMismatch := by
  unfold checkBody at h
  repeat (first | split at h | (simp at h; try simp [← h]))

theorem checkPayload_error (shape : Shape) (n : Nat) (payload : List Byte) (code : ErrCode)
    (h : checkPayload shape n payload = .error code) : code = .unexpectedLength := by
  unfold checkPayload at h
  repeat (first | split at h | (simp at h; try simp [← h]))

/-- A payload that passes the length checks is the one given, within PMAX and of the shape's length. -/
theorem checkPayload_ok (shape : Shape) (n : Nat) (payload out : List Byte) (h : checkPayload shape n payload = .ok out) :
    out = payload ∧ payload.length ≤ Config.pmax ∧ (shape = .fixed → payload.length = n)
      ∧ (shape = .lenpfx → ∃ k rest, payload = k :: rest ∧ k.toNat = rest.length) := by
  unfold checkPayload at h
  split at h
  · cases h
  · rename_i hp
    refine ⟨?_, by omega, ?_, ?_⟩
    · repeat (first | split at h | (simp at h; try simp [← h]))
    · rintro rfl
      by_cases hn : payload.length = n
      · exact hn
      · simp [hn] at h
    · rintro rfl
      cases payload with
      | nil => simp at h
      | cons k rest =>
        by_cases hk : k.toNat = rest.length
        · exact ⟨k, rest, rfl, hk⟩
        · simp [hk] at h

/-- Decode ends in its length checks, on a payload that came out of its earlier steps. -/
theorem decodeFrame_ok {p : Profile} {shape : Shape} {n : Nat} {bytes payload : List Byte}
    (h : decodeFrame p shape n bytes = .ok payload) :
    payload.length ≤ Config.pmax ∧ (shape = .fixed → payload.length = n) := by
  unfold decodeFrame at h
  repeat (first | split at h | cases h)
  · have := checkPayload_ok _ _ _ _ h
    rw [this.1]; exact ⟨this.2.1, this.2.2.1⟩

/-- Every error of Decode is a code of class MALFORMED (60_exceptions.md R251). -/
theorem decodeFrame_error {p : Profile} {shape : Shape} {n : Nat} {bytes : List Byte} {code : ErrCode}
    (h : decodeFrame p shape n bytes = .error code) : classAllows .malformed code = true := by
  unfold decodeFrame at h
  split at h
  · cases h; decide
  split at h
  · cases h; decide
  split at h
  · cases h; decide
  split at h
  · rename_i e he
    cases h; rw [unstuff_error _ _ _ he]; decide
  split at h
  · rename_i e he
    cases h
    rcases checkBody_error _ _ _ he with rfl | rfl <;> decide
  · rw [checkPayload_error _ _ _ _ h]; decide

end Sys2Proof.Laws
end

