-- ==== Sys2Proof/Laws/Memory.lean ====
section
/-! SUPPORT. The laws of a byte buffer: read after write, and that every operation keeps the canonical form and the depth. -/

namespace Sys2Proof.Laws

open Sys2Proof.Machine

theorem wf_cons {k : Nat} {v : Byte} {rest : Memory} :
    Memory.wf ((k, v) :: rest) = true ↔ v ≠ 0 ∧ (∀ c ∈ rest, k < c.1) ∧ Memory.wf rest = true := by
  simp [Memory.wf, and_assoc]

/-- An index below every listed one holds 0x00. -/
theorem read_below_all (m : Memory) (a : Nat) (h : ∀ c ∈ m, a < c.1) : m.read a = 0 := by
  induction m with
  | nil => rfl
  | cons c rest ih =>
    obtain ⟨k, v⟩ := c
    have hk : a < k := h (k, v) (by simp)
    simp [Memory.read, Nat.ne_of_gt hk]
    exact ih (fun c hc => h c (by simp [hc]))

theorem read_write_same (m : Memory) (a : Nat) (b : Byte) (h : m.wf = true) : (m.write a b).read a = b := by
  induction m with
  | nil => by_cases hb : b = 0#8 <;> simp [Memory.write, Memory.read, hb]
  | cons c rest ih =>
    obtain ⟨k, v⟩ := c
    obtain ⟨hv, hlt, hwf⟩ := wf_cons.mp h
    simp only [Memory.write]
    split
    · rename_i hak
      by_cases hb : b = 0#8
      · simp [hb, Memory.read, Nat.ne_of_gt hak]
        exact read_below_all rest a (fun c hc => Nat.lt_trans hak (hlt c hc))
      · simp [hb, Memory.read]
    · split
      · rename_i _ hak
        subst hak
        by_cases hb : b = 0#8
        · simp [hb, read_below_all rest a hlt]
        · simp [hb, Memory.read]
      · rename_i _ hak
        simp [Memory.read, Ne.symm hak, ih hwf]

theorem read_write_other (m : Memory) (a c : Nat) (b : Byte) (h : c ≠ a) : (m.write a b).read c = m.read c := by
  induction m with
  | nil => by_cases hb : b = 0#8 <;> simp [Memory.write, Memory.read, hb, Ne.symm h]
  | cons d rest ih =>
    obtain ⟨k, v⟩ := d
    simp only [Memory.write]
    split
    · by_cases hb : b = 0#8 <;> simp [hb, Memory.read, Ne.symm h]
    · split
      · rename_i _ hak
        subst hak
        by_cases hb : b = 0#8 <;> simp [hb, Memory.read, Ne.symm h]
      · simp [Memory.read, ih]

theorem mem_write (m : Memory) (a : Nat) (b : Byte) {c : Host.Cell} (h : c ∈ m.write a b) : c ∈ m ∨ c = (a, b) := by
  induction m with
  | nil =>
    by_cases hb : b = 0#8 <;> simp [Memory.write, hb] at h
    exact .inr h
  | cons d rest ih =>
    obtain ⟨k, v⟩ := d
    simp only [Memory.write] at h
    split at h
    · by_cases hb : b = 0#8
      · exact .inl (by simpa [hb] using h)
      · simp only [BitVec.ofNat_eq_ofNat, hb, if_false, List.mem_cons] at h
        rcases h with h | h
        · exact .inr h
        · exact .inl (by simpa using h)
    · split at h
      · by_cases hb : b = 0#8
        · exact .inl (by simp [hb] at h; simp [h])
        · simp only [BitVec.ofNat_eq_ofNat, hb, if_false, List.mem_cons] at h
          rcases h with h | h
          · exact .inr h
          · exact .inl (by simp [h])
      · simp only [List.mem_cons] at h
        rcases h with h | h
        · exact .inl (by simp [h])
        · rcases ih h with h | h
          · exact .inl (by simp [h])
          · exact .inr h

theorem wf_write (m : Memory) (a : Nat) (b : Byte) (h : m.wf = true) : (m.write a b).wf = true := by
  induction m with
  | nil => by_cases hb : b = 0#8 <;> simp [Memory.write, Memory.wf, hb]
  | cons d rest ih =>
    obtain ⟨k, v⟩ := d
    obtain ⟨hv, hlt, hwf⟩ := wf_cons.mp h
    simp only [Memory.write]
    split
    · rename_i hak
      by_cases hb : b = 0#8
      · simpa [hb] using h
      · simp only [BitVec.ofNat_eq_ofNat, hb, if_false]
        refine wf_cons.mpr ⟨hb, fun c hc => ?_, h⟩
        rcases List.mem_cons.mp hc with rfl | hc
        · exact hak
        · exact Nat.lt_trans hak (hlt c hc)
    · split
      · rename_i _ hak
        subst hak
        by_cases hb : b = 0#8
        · simpa [hb] using hwf
        · simp only [BitVec.ofNat_eq_ofNat, hb, if_false]
          exact wf_cons.mpr ⟨hb, hlt, hwf⟩
      · rename_i h1 h2
        refine wf_cons.mpr ⟨hv, fun c hc => ?_, ih hwf⟩
        rcases mem_write rest a b hc with hc | rfl
        · exact hlt c hc
        · simp only; omega

theorem below_write (m : Memory) (a : Nat) (b : Byte) (depth : Nat) (ha : a < depth) (h : m.below depth = true) :
    (m.write a b).below depth = true := by
  simp only [Memory.below, List.all_eq_true, decide_eq_true_eq] at h ⊢
  intro c hc
  rcases mem_write m a b hc with hc | rfl
  · exact h c hc
  · exact ha

theorem wf_store (m : Memory) (a : Nat) (bytes : List Byte) (h : m.wf = true) : (m.store a bytes).wf = true := by
  induction bytes generalizing m a with
  | nil => exact h
  | cons b bs ih => exact ih _ _ (wf_write m a b h)

theorem below_store (m : Memory) (a : Nat) (bytes : List Byte) (depth : Nat) (ha : a + bytes.length ≤ depth)
    (h : m.below depth = true) : (m.store a bytes).below depth = true := by
  induction bytes generalizing m a with
  | nil => exact h
  | cons b bs ih =>
    simp only [List.length_cons] at ha
    exact ih _ _ (by omega) (below_write m a b depth (by omega) h)

/-- What a store leaves at every index. -/
theorem read_store (m : Memory) (a : Nat) (bytes : List Byte) (h : m.wf = true) (c : Nat) :
    (m.store a bytes).read c = if a ≤ c ∧ c < a + bytes.length then bytes.getD (c - a) 0 else m.read c := by
  induction bytes generalizing m a with
  | nil =>
    have hc : ¬ (a ≤ c ∧ c < a + ([] : List Byte).length) := by simp
    rw [if_neg hc]
    rfl
  | cons b bs ih =>
    simp only [Memory.store, List.length_cons]
    rw [ih _ _ (wf_write m a b h)]
    by_cases hca : c = a
    · subst hca
      have h1 : ¬ (c + 1 ≤ c ∧ c < c + 1 + bs.length) := by omega
      have h2 : c ≤ c ∧ c < c + (bs.length + 1) := by omega
      rw [if_neg h1, if_pos h2, read_write_same m c b h]
      simp
    · rw [read_write_other m a c b hca]
      by_cases h1 : a + 1 ≤ c ∧ c < a + 1 + bs.length
      · have h2 : a ≤ c ∧ c < a + (bs.length + 1) := by omega
        rw [if_pos h1, if_pos h2]
        obtain ⟨d, rfl⟩ : ∃ d, c = a + 1 + d := ⟨c - (a + 1), by omega⟩
        have e1 : a + 1 + d - (a + 1) = d := by omega
        have e2 : a + 1 + d - a = d + 1 := by omega
        rw [e1, e2]
        simp
      · have h2 : ¬ (a ≤ c ∧ c < a + (bs.length + 1)) := by omega
        rw [if_neg h1, if_neg h2]

@[simp] theorem load_length (m : Memory) (n : Nat) : (m.load n).length = n := by simp [Memory.load]

theorem load_getElem (m : Memory) (n i : Nat) (h : i < (m.load n).length) : (m.load n)[i] = m.read i := by
  simp [Memory.load]

/-- Loading one byte more appends the byte at the old length. -/
theorem load_succ (m : Memory) (n : Nat) : m.load (n + 1) = m.load n ++ [m.read n] := by
  simp [Memory.load, List.range_succ]

/-- Loading what was stored at index 0 gives it back. -/
theorem load_store (m : Memory) (bytes : List Byte) (h : m.wf = true) : (m.store 0 bytes).load bytes.length = bytes := by
  apply List.ext_getElem (by simp)
  intro i h1 h2
  rw [load_getElem, read_store m 0 bytes h]
  simp [List.getD_eq_getElem?_getD, h2]

/-- Two canonical buffers that read alike are equal. -/
theorem ext_of_wf (m m' : Memory) (h : m.wf = true) (h' : m'.wf = true) (e : ∀ a, m.read a = m'.read a) : m = m' := by
  induction m generalizing m' with
  | nil =>
    cases m' with
    | nil => rfl
    | cons c rest =>
      obtain ⟨k, v⟩ := c
      obtain ⟨hv, -, -⟩ := wf_cons.mp h'
      have := e k
      simp [Memory.read] at this
      exact absurd this.symm hv
  | cons c rest ih =>
    obtain ⟨k, v⟩ := c
    obtain ⟨hv, hlt, hwf⟩ := wf_cons.mp h
    cases m' with
    | nil =>
      have := e k
      simp [Memory.read] at this
      exact absurd this hv
    | cons c' rest' =>
      obtain ⟨k', v'⟩ := c'
      obtain ⟨hv', hlt', hwf'⟩ := wf_cons.mp h'
      have hk : k = k' := by
        rcases Nat.lt_trichotomy k k' with hl | he | hl
        · have h1 := e k
          rw [read_below_all ((k', v') :: rest') k (by
            intro c hc
            rcases List.mem_cons.mp hc with rfl | hc
            · exact hl
            · exact Nat.lt_trans hl (hlt' c hc))] at h1
          simp [Memory.read] at h1
          exact absurd h1 hv
        · exact he
        · have h1 := e k'
          rw [read_below_all ((k, v) :: rest) k' (by
            intro c hc
            rcases List.mem_cons.mp hc with rfl | hc
            · exact hl
            · exact Nat.lt_trans hl (hlt c hc))] at h1
          simp [Memory.read] at h1
          exact absurd h1.symm hv'
      subst hk
      have hvv : v = v' := by simpa [Memory.read] using e k
      subst hvv
      rw [ih rest' hwf hwf' (fun a => by
        by_cases ha : k = a
        · subst ha
          rw [read_below_all rest k hlt, read_below_all rest' k hlt']
        · simpa [Memory.read, ha] using e a)]

end Sys2Proof.Laws
end

