-- ==== Sys2Proof/Laws/State.lean ====
section
/-! SUPPORT. What each update of the state does to each field: one lemma per field, true by rfl. -/

namespace Sys2Proof.Laws

open Sys2Proof.Machine

section
variable (v : Word) (s : State)

@[simp] theorem latchCommand_xstate : (latchCommand v s).xstate = s.xstate := rfl
@[simp] theorem latchCommand_done : (latchCommand v s).done = s.done := rfl
@[simp] theorem latchCommand_phase : (latchCommand v s).phase = s.phase := rfl
@[simp] theorem latchCommand_rxDrop : (latchCommand v s).rxDrop = s.rxDrop := rfl
@[simp] theorem latchCommand_cmdRej : (latchCommand v s).cmdRej = s.cmdRej := rfl
@[simp] theorem latchCommand_busErr : (latchCommand v s).busErr = s.busErr := rfl
@[simp] theorem latchCommand_wrRej : (latchCommand v s).wrRej = s.wrRej := rfl
@[simp] theorem latchCommand_cmd : (latchCommand v s).cmd = v := rfl
@[simp] theorem latchCommand_resClass : (latchCommand v s).resClass = s.resClass := rfl
@[simp] theorem latchCommand_resErr : (latchCommand v s).resErr = s.resErr := rfl
@[simp] theorem latchCommand_resValue : (latchCommand v s).resValue = s.resValue := rfl
@[simp] theorem latchCommand_ie : (latchCommand v s).ie = s.ie := rfl
@[simp] theorem latchCommand_swipeFramed : (latchCommand v s).swipeFramed = s.swipeFramed := rfl
@[simp] theorem latchCommand_slotAscii : (latchCommand v s).slotAscii = s.slotAscii := rfl
@[simp] theorem latchCommand_replyTimeout : (latchCommand v s).replyTimeout = s.replyTimeout := rfl
@[simp] theorem latchCommand_settle : (latchCommand v s).settle = s.settle := rfl
@[simp] theorem latchCommand_txlen : (latchCommand v s).txlen = s.txlen := rfl
@[simp] theorem latchCommand_rxlen : (latchCommand v s).rxlen = s.rxlen := rfl
@[simp] theorem latchCommand_flen : (latchCommand v s).flen = s.flen := rfl
@[simp] theorem latchCommand_dlCnt : (latchCommand v s).dlCnt = s.dlCnt := rfl
@[simp] theorem latchCommand_txIdx : (latchCommand v s).txIdx = s.txIdx := rfl
@[simp] theorem latchCommand_swipeDisc : (latchCommand v s).swipeDisc = s.swipeDisc := rfl
@[simp] theorem latchCommand_p0 : (latchCommand v s).p0 = s.p0 := rfl
@[simp] theorem latchCommand_p1 : (latchCommand v s).p1 = s.p1 := rfl
@[simp] theorem latchCommand_pbufTx : (latchCommand v s).pbufTx = s.pbufTx := rfl
@[simp] theorem latchCommand_pbufRx : (latchCommand v s).pbufRx = s.pbufRx := rfl
@[simp] theorem latchCommand_fbuf : (latchCommand v s).fbuf = s.fbuf := rfl
@[simp] theorem latchCommand_inputs : (latchCommand v s).inputs = s.inputs := rfl
@[simp] theorem latchCommand_cycle : (latchCommand v s).cycle = s.cycle := rfl
@[simp] theorem latchCommand_out : (latchCommand v s).out = s.out := rfl

end

section
variable (s : State)

@[simp] theorem accept_xstate : (accept s).xstate = s.xstate := rfl
@[simp] theorem accept_done : (accept s).done = false := rfl
@[simp] theorem accept_phase : (accept s).phase = false := rfl
@[simp] theorem accept_rxDrop : (accept s).rxDrop = s.rxDrop := rfl
@[simp] theorem accept_cmdRej : (accept s).cmdRej = s.cmdRej := rfl
@[simp] theorem accept_busErr : (accept s).busErr = s.busErr := rfl
@[simp] theorem accept_wrRej : (accept s).wrRej = s.wrRej := rfl
@[simp] theorem accept_cmd : (accept s).cmd = s.cmd := rfl
@[simp] theorem accept_resClass : (accept s).resClass = .noResult := rfl
@[simp] theorem accept_resErr : (accept s).resErr = .noError := rfl
@[simp] theorem accept_resValue : (accept s).resValue = 0 := rfl
@[simp] theorem accept_ie : (accept s).ie = s.ie := rfl
@[simp] theorem accept_swipeFramed : (accept s).swipeFramed = s.swipeFramed := rfl
@[simp] theorem accept_slotAscii : (accept s).slotAscii = s.slotAscii := rfl
@[simp] theorem accept_replyTimeout : (accept s).replyTimeout = s.replyTimeout := rfl
@[simp] theorem accept_settle : (accept s).settle = s.settle := rfl
@[simp] theorem accept_txlen : (accept s).txlen = s.txlen := rfl
@[simp] theorem accept_rxlen : (accept s).rxlen = 0 := rfl
@[simp] theorem accept_flen : (accept s).flen = s.flen := rfl
@[simp] theorem accept_dlCnt : (accept s).dlCnt = s.dlCnt := rfl
@[simp] theorem accept_txIdx : (accept s).txIdx = s.txIdx := rfl
@[simp] theorem accept_swipeDisc : (accept s).swipeDisc = s.swipeDisc := rfl
@[simp] theorem accept_p0 : (accept s).p0 = s.p0 := rfl
@[simp] theorem accept_p1 : (accept s).p1 = s.p1 := rfl
@[simp] theorem accept_pbufTx : (accept s).pbufTx = s.pbufTx := rfl
@[simp] theorem accept_pbufRx : (accept s).pbufRx = s.pbufRx := rfl
@[simp] theorem accept_fbuf : (accept s).fbuf = s.fbuf := rfl
@[simp] theorem accept_inputs : (accept s).inputs = s.inputs := rfl
@[simp] theorem accept_cycle : (accept s).cycle = s.cycle := rfl
@[simp] theorem accept_out : (accept s).out = s.out := rfl

end

section
variable (c : Option Instr) (k : ResultClass) (e : ErrCode) (v : Byte) (p : Option (List Byte)) (s : State)

@[simp] theorem finish_xstate : (finish c k e v p s).xstate = terminalState k c := rfl
@[simp] theorem finish_done : (finish c k e v p s).done = true := rfl
@[simp] theorem finish_phase : (finish c k e v p s).phase = s.phase := rfl
@[simp] theorem finish_rxDrop : (finish c k e v p s).rxDrop = s.rxDrop := rfl
@[simp] theorem finish_cmdRej : (finish c k e v p s).cmdRej = s.cmdRej := rfl
@[simp] theorem finish_busErr : (finish c k e v p s).busErr = s.busErr := rfl
@[simp] theorem finish_wrRej : (finish c k e v p s).wrRej = s.wrRej := rfl
@[simp] theorem finish_cmd : (finish c k e v p s).cmd = s.cmd := rfl
@[simp] theorem finish_resClass : (finish c k e v p s).resClass = k := rfl
@[simp] theorem finish_resErr : (finish c k e v p s).resErr = e := rfl
@[simp] theorem finish_resValue : (finish c k e v p s).resValue = v := rfl
@[simp] theorem finish_ie : (finish c k e v p s).ie = s.ie := rfl
@[simp] theorem finish_swipeFramed : (finish c k e v p s).swipeFramed = s.swipeFramed := rfl
@[simp] theorem finish_slotAscii : (finish c k e v p s).slotAscii = s.slotAscii := rfl
@[simp] theorem finish_replyTimeout : (finish c k e v p s).replyTimeout = s.replyTimeout := rfl
@[simp] theorem finish_settle : (finish c k e v p s).settle = s.settle := rfl
@[simp] theorem finish_txlen : (finish c k e v p s).txlen = s.txlen := rfl
@[simp] theorem finish_flen : (finish c k e v p s).flen = s.flen := rfl
@[simp] theorem finish_dlCnt : (finish c k e v p s).dlCnt = s.dlCnt := rfl
@[simp] theorem finish_txIdx : (finish c k e v p s).txIdx = s.txIdx := rfl
@[simp] theorem finish_swipeDisc : (finish c k e v p s).swipeDisc = s.swipeDisc := rfl
@[simp] theorem finish_p0 : (finish c k e v p s).p0 = s.p0 := rfl
@[simp] theorem finish_p1 : (finish c k e v p s).p1 = s.p1 := rfl
@[simp] theorem finish_pbufTx : (finish c k e v p s).pbufTx = s.pbufTx := rfl
@[simp] theorem finish_fbuf : (finish c k e v p s).fbuf = s.fbuf := rfl
@[simp] theorem finish_inputs : (finish c k e v p s).inputs = s.inputs := rfl
@[simp] theorem finish_cycle : (finish c k e v p s).cycle = s.cycle := rfl
@[simp] theorem finish_out : (finish c k e v p s).out = s.out := rfl

end

@[simp] theorem finish_none_rxlen (c : Option Instr) (k : ResultClass) (e : ErrCode) (v : Byte) (s : State) :
    (finish c k e v none s).rxlen = 0 := rfl

@[simp] theorem finish_none_pbufRx (c : Option Instr) (k : ResultClass) (e : ErrCode) (v : Byte) (s : State) :
    (finish c k e v none s).pbufRx = s.pbufRx := rfl

@[simp] theorem finish_some_rxlen (c : Option Instr) (k : ResultClass) (e : ErrCode) (v : Byte) (b : List Byte) (s : State) :
    (finish c k e v (some b) s).rxlen = BitVec.ofNat 16 b.length := rfl

@[simp] theorem finish_some_pbufRx (c : Option Instr) (k : ResultClass) (e : ErrCode) (v : Byte) (b : List Byte) (s : State) :
    (finish c k e v (some b) s).pbufRx = s.pbufRx.store 0 b := rfl

section
variable (s : State)

@[simp] theorem acknowledge_xstate : (acknowledge s).xstate = s.xstate := rfl
@[simp] theorem acknowledge_done : (acknowledge s).done = false := rfl
@[simp] theorem acknowledge_phase : (acknowledge s).phase = s.phase := rfl
@[simp] theorem acknowledge_rxDrop : (acknowledge s).rxDrop = s.rxDrop := rfl
@[simp] theorem acknowledge_cmdRej : (acknowledge s).cmdRej = s.cmdRej := rfl
@[simp] theorem acknowledge_busErr : (acknowledge s).busErr = s.busErr := rfl
@[simp] theorem acknowledge_wrRej : (acknowledge s).wrRej = s.wrRej := rfl
@[simp] theorem acknowledge_cmd : (acknowledge s).cmd = s.cmd := rfl
@[simp] theorem acknowledge_resClass : (acknowledge s).resClass = s.resClass := rfl
@[simp] theorem acknowledge_resErr : (acknowledge s).resErr = s.resErr := rfl
@[simp] theorem acknowledge_resValue : (acknowledge s).resValue = s.resValue := rfl
@[simp] theorem acknowledge_ie : (acknowledge s).ie = s.ie := rfl
@[simp] theorem acknowledge_swipeFramed : (acknowledge s).swipeFramed = s.swipeFramed := rfl
@[simp] theorem acknowledge_slotAscii : (acknowledge s).slotAscii = s.slotAscii := rfl
@[simp] theorem acknowledge_replyTimeout : (acknowledge s).replyTimeout = s.replyTimeout := rfl
@[simp] theorem acknowledge_settle : (acknowledge s).settle = s.settle := rfl
@[simp] theorem acknowledge_txlen : (acknowledge s).txlen = s.txlen := rfl
@[simp] theorem acknowledge_rxlen : (acknowledge s).rxlen = s.rxlen := rfl
@[simp] theorem acknowledge_flen : (acknowledge s).flen = s.flen := rfl
@[simp] theorem acknowledge_dlCnt : (acknowledge s).dlCnt = s.dlCnt := rfl
@[simp] theorem acknowledge_txIdx : (acknowledge s).txIdx = s.txIdx := rfl
@[simp] theorem acknowledge_swipeDisc : (acknowledge s).swipeDisc = s.swipeDisc := rfl
@[simp] theorem acknowledge_p0 : (acknowledge s).p0 = s.p0 := rfl
@[simp] theorem acknowledge_p1 : (acknowledge s).p1 = s.p1 := rfl
@[simp] theorem acknowledge_pbufTx : (acknowledge s).pbufTx = s.pbufTx := rfl
@[simp] theorem acknowledge_pbufRx : (acknowledge s).pbufRx = s.pbufRx := rfl
@[simp] theorem acknowledge_fbuf : (acknowledge s).fbuf = s.fbuf := rfl
@[simp] theorem acknowledge_inputs : (acknowledge s).inputs = s.inputs := rfl
@[simp] theorem acknowledge_cycle : (acknowledge s).cycle = s.cycle := rfl
@[simp] theorem acknowledge_out : (acknowledge s).out = s.out := rfl

end

section
variable (b : Byte) (s : State)

@[simp] theorem appendByte_xstate : (appendByte b s).xstate = s.xstate := rfl
@[simp] theorem appendByte_done : (appendByte b s).done = s.done := rfl
@[simp] theorem appendByte_phase : (appendByte b s).phase = s.phase := rfl
@[simp] theorem appendByte_rxDrop : (appendByte b s).rxDrop = s.rxDrop := rfl
@[simp] theorem appendByte_cmdRej : (appendByte b s).cmdRej = s.cmdRej := rfl
@[simp] theorem appendByte_busErr : (appendByte b s).busErr = s.busErr := rfl
@[simp] theorem appendByte_wrRej : (appendByte b s).wrRej = s.wrRej := rfl
@[simp] theorem appendByte_cmd : (appendByte b s).cmd = s.cmd := rfl
@[simp] theorem appendByte_resClass : (appendByte b s).resClass = s.resClass := rfl
@[simp] theorem appendByte_resErr : (appendByte b s).resErr = s.resErr := rfl
@[simp] theorem appendByte_resValue : (appendByte b s).resValue = s.resValue := rfl
@[simp] theorem appendByte_ie : (appendByte b s).ie = s.ie := rfl
@[simp] theorem appendByte_swipeFramed : (appendByte b s).swipeFramed = s.swipeFramed := rfl
@[simp] theorem appendByte_slotAscii : (appendByte b s).slotAscii = s.slotAscii := rfl
@[simp] theorem appendByte_replyTimeout : (appendByte b s).replyTimeout = s.replyTimeout := rfl
@[simp] theorem appendByte_settle : (appendByte b s).settle = s.settle := rfl
@[simp] theorem appendByte_txlen : (appendByte b s).txlen = s.txlen := rfl
@[simp] theorem appendByte_rxlen : (appendByte b s).rxlen = s.rxlen := rfl
@[simp] theorem appendByte_flen : (appendByte b s).flen = s.flen + 1 := rfl
@[simp] theorem appendByte_dlCnt : (appendByte b s).dlCnt = s.dlCnt := rfl
@[simp] theorem appendByte_txIdx : (appendByte b s).txIdx = s.txIdx := rfl
@[simp] theorem appendByte_swipeDisc : (appendByte b s).swipeDisc = s.swipeDisc := rfl
@[simp] theorem appendByte_p0 : (appendByte b s).p0 = s.p0 := rfl
@[simp] theorem appendByte_p1 : (appendByte b s).p1 = s.p1 := rfl
@[simp] theorem appendByte_pbufTx : (appendByte b s).pbufTx = s.pbufTx := rfl
@[simp] theorem appendByte_pbufRx : (appendByte b s).pbufRx = s.pbufRx := rfl
@[simp] theorem appendByte_fbuf : (appendByte b s).fbuf = s.fbuf.write s.flen.toNat b := rfl
@[simp] theorem appendByte_inputs : (appendByte b s).inputs = s.inputs := rfl
@[simp] theorem appendByte_cycle : (appendByte b s).cycle = s.cycle := rfl
@[simp] theorem appendByte_out : (appendByte b s).out = s.out := rfl

end

section
variable (f : List Byte) (ph : Bool) (s : State)

@[simp] theorem sendFrame_xstate : (sendFrame f ph s).xstate = .commandSent := rfl
@[simp] theorem sendFrame_done : (sendFrame f ph s).done = s.done := rfl
@[simp] theorem sendFrame_phase : (sendFrame f ph s).phase = ph := rfl
@[simp] theorem sendFrame_rxDrop : (sendFrame f ph s).rxDrop = s.rxDrop := rfl
@[simp] theorem sendFrame_cmdRej : (sendFrame f ph s).cmdRej = s.cmdRej := rfl
@[simp] theorem sendFrame_busErr : (sendFrame f ph s).busErr = s.busErr := rfl
@[simp] theorem sendFrame_wrRej : (sendFrame f ph s).wrRej = s.wrRej := rfl
@[simp] theorem sendFrame_cmd : (sendFrame f ph s).cmd = s.cmd := rfl
@[simp] theorem sendFrame_resClass : (sendFrame f ph s).resClass = s.resClass := rfl
@[simp] theorem sendFrame_resErr : (sendFrame f ph s).resErr = s.resErr := rfl
@[simp] theorem sendFrame_resValue : (sendFrame f ph s).resValue = s.resValue := rfl
@[simp] theorem sendFrame_ie : (sendFrame f ph s).ie = s.ie := rfl
@[simp] theorem sendFrame_swipeFramed : (sendFrame f ph s).swipeFramed = s.swipeFramed := rfl
@[simp] theorem sendFrame_slotAscii : (sendFrame f ph s).slotAscii = s.slotAscii := rfl
@[simp] theorem sendFrame_replyTimeout : (sendFrame f ph s).replyTimeout = s.replyTimeout := rfl
@[simp] theorem sendFrame_settle : (sendFrame f ph s).settle = s.settle := rfl
@[simp] theorem sendFrame_txlen : (sendFrame f ph s).txlen = s.txlen := rfl
@[simp] theorem sendFrame_rxlen : (sendFrame f ph s).rxlen = s.rxlen := rfl
@[simp] theorem sendFrame_flen : (sendFrame f ph s).flen = BitVec.ofNat 16 f.length := rfl
@[simp] theorem sendFrame_dlCnt : (sendFrame f ph s).dlCnt = s.replyTimeout := rfl
@[simp] theorem sendFrame_txIdx : (sendFrame f ph s).txIdx = 0 := rfl
@[simp] theorem sendFrame_swipeDisc : (sendFrame f ph s).swipeDisc = s.swipeDisc := rfl
@[simp] theorem sendFrame_p0 : (sendFrame f ph s).p0 = s.p0 := rfl
@[simp] theorem sendFrame_p1 : (sendFrame f ph s).p1 = s.p1 := rfl
@[simp] theorem sendFrame_pbufTx : (sendFrame f ph s).pbufTx = s.pbufTx := rfl
@[simp] theorem sendFrame_pbufRx : (sendFrame f ph s).pbufRx = s.pbufRx := rfl
@[simp] theorem sendFrame_fbuf : (sendFrame f ph s).fbuf = s.fbuf.store 0 f := rfl
@[simp] theorem sendFrame_inputs : (sendFrame f ph s).inputs = s.inputs := rfl
@[simp] theorem sendFrame_cycle : (sendFrame f ph s).cycle = s.cycle := rfl
@[simp] theorem sendFrame_out : (sendFrame f ph s).out = s.out := rfl

end

section
variable (s : State)

@[simp] theorem startListen_xstate : (startListen s).xstate = .awaitingReply := rfl
@[simp] theorem startListen_done : (startListen s).done = s.done := rfl
@[simp] theorem startListen_phase : (startListen s).phase = false := rfl
@[simp] theorem startListen_rxDrop : (startListen s).rxDrop = s.rxDrop := rfl
@[simp] theorem startListen_cmdRej : (startListen s).cmdRej = s.cmdRej := rfl
@[simp] theorem startListen_busErr : (startListen s).busErr = s.busErr := rfl
@[simp] theorem startListen_wrRej : (startListen s).wrRej = s.wrRej := rfl
@[simp] theorem startListen_cmd : (startListen s).cmd = s.cmd := rfl
@[simp] theorem startListen_resClass : (startListen s).resClass = s.resClass := rfl
@[simp] theorem startListen_resErr : (startListen s).resErr = s.resErr := rfl
@[simp] theorem startListen_resValue : (startListen s).resValue = s.resValue := rfl
@[simp] theorem startListen_ie : (startListen s).ie = s.ie := rfl
@[simp] theorem startListen_swipeFramed : (startListen s).swipeFramed = s.swipeFramed := rfl
@[simp] theorem startListen_slotAscii : (startListen s).slotAscii = s.slotAscii := rfl
@[simp] theorem startListen_replyTimeout : (startListen s).replyTimeout = s.replyTimeout := rfl
@[simp] theorem startListen_settle : (startListen s).settle = s.settle := rfl
@[simp] theorem startListen_txlen : (startListen s).txlen = s.txlen := rfl
@[simp] theorem startListen_rxlen : (startListen s).rxlen = s.rxlen := rfl
@[simp] theorem startListen_flen : (startListen s).flen = 0 := rfl
@[simp] theorem startListen_dlCnt : (startListen s).dlCnt = s.replyTimeout := rfl
@[simp] theorem startListen_txIdx : (startListen s).txIdx = 0 := rfl
@[simp] theorem startListen_swipeDisc : (startListen s).swipeDisc = s.swipeDisc := rfl
@[simp] theorem startListen_p0 : (startListen s).p0 = s.p0 := rfl
@[simp] theorem startListen_p1 : (startListen s).p1 = s.p1 := rfl
@[simp] theorem startListen_pbufTx : (startListen s).pbufTx = s.pbufTx := rfl
@[simp] theorem startListen_pbufRx : (startListen s).pbufRx = s.pbufRx := rfl
@[simp] theorem startListen_fbuf : (startListen s).fbuf = s.fbuf := rfl
@[simp] theorem startListen_inputs : (startListen s).inputs = s.inputs := rfl
@[simp] theorem startListen_cycle : (startListen s).cycle = s.cycle := rfl
@[simp] theorem startListen_out : (startListen s).out = s.out := rfl

end

section
variable (s : State)

@[simp] theorem dropByte_xstate : (dropByte s).xstate = s.xstate := rfl
@[simp] theorem dropByte_done : (dropByte s).done = s.done := rfl
@[simp] theorem dropByte_phase : (dropByte s).phase = s.phase := rfl
@[simp] theorem dropByte_rxDrop : (dropByte s).rxDrop = true := rfl
@[simp] theorem dropByte_cmdRej : (dropByte s).cmdRej = s.cmdRej := rfl
@[simp] theorem dropByte_busErr : (dropByte s).busErr = s.busErr := rfl
@[simp] theorem dropByte_wrRej : (dropByte s).wrRej = s.wrRej := rfl
@[simp] theorem dropByte_cmd : (dropByte s).cmd = s.cmd := rfl
@[simp] theorem dropByte_resClass : (dropByte s).resClass = s.resClass := rfl
@[simp] theorem dropByte_resErr : (dropByte s).resErr = s.resErr := rfl
@[simp] theorem dropByte_resValue : (dropByte s).resValue = s.resValue := rfl
@[simp] theorem dropByte_ie : (dropByte s).ie = s.ie := rfl
@[simp] theorem dropByte_swipeFramed : (dropByte s).swipeFramed = s.swipeFramed := rfl
@[simp] theorem dropByte_slotAscii : (dropByte s).slotAscii = s.slotAscii := rfl
@[simp] theorem dropByte_replyTimeout : (dropByte s).replyTimeout = s.replyTimeout := rfl
@[simp] theorem dropByte_settle : (dropByte s).settle = s.settle := rfl
@[simp] theorem dropByte_txlen : (dropByte s).txlen = s.txlen := rfl
@[simp] theorem dropByte_rxlen : (dropByte s).rxlen = s.rxlen := rfl
@[simp] theorem dropByte_flen : (dropByte s).flen = s.flen := rfl
@[simp] theorem dropByte_dlCnt : (dropByte s).dlCnt = s.dlCnt := rfl
@[simp] theorem dropByte_txIdx : (dropByte s).txIdx = s.txIdx := rfl
@[simp] theorem dropByte_swipeDisc : (dropByte s).swipeDisc = s.swipeDisc := rfl
@[simp] theorem dropByte_p0 : (dropByte s).p0 = s.p0 := rfl
@[simp] theorem dropByte_p1 : (dropByte s).p1 = s.p1 := rfl
@[simp] theorem dropByte_pbufTx : (dropByte s).pbufTx = s.pbufTx := rfl
@[simp] theorem dropByte_pbufRx : (dropByte s).pbufRx = s.pbufRx := rfl
@[simp] theorem dropByte_fbuf : (dropByte s).fbuf = s.fbuf := rfl
@[simp] theorem dropByte_inputs : (dropByte s).inputs = s.inputs := rfl
@[simp] theorem dropByte_cycle : (dropByte s).cycle = s.cycle := rfl
@[simp] theorem dropByte_out : (dropByte s).out = s.out := rfl

end

section
variable (s : State)

@[simp] theorem rejectCommand_xstate : (rejectCommand s).xstate = s.xstate := rfl
@[simp] theorem rejectCommand_done : (rejectCommand s).done = s.done := rfl
@[simp] theorem rejectCommand_phase : (rejectCommand s).phase = s.phase := rfl
@[simp] theorem rejectCommand_rxDrop : (rejectCommand s).rxDrop = s.rxDrop := rfl
@[simp] theorem rejectCommand_cmdRej : (rejectCommand s).cmdRej = true := rfl
@[simp] theorem rejectCommand_busErr : (rejectCommand s).busErr = s.busErr := rfl
@[simp] theorem rejectCommand_wrRej : (rejectCommand s).wrRej = s.wrRej := rfl
@[simp] theorem rejectCommand_cmd : (rejectCommand s).cmd = s.cmd := rfl
@[simp] theorem rejectCommand_resClass : (rejectCommand s).resClass = s.resClass := rfl
@[simp] theorem rejectCommand_resErr : (rejectCommand s).resErr = s.resErr := rfl
@[simp] theorem rejectCommand_resValue : (rejectCommand s).resValue = s.resValue := rfl
@[simp] theorem rejectCommand_ie : (rejectCommand s).ie = s.ie := rfl
@[simp] theorem rejectCommand_swipeFramed : (rejectCommand s).swipeFramed = s.swipeFramed := rfl
@[simp] theorem rejectCommand_slotAscii : (rejectCommand s).slotAscii = s.slotAscii := rfl
@[simp] theorem rejectCommand_replyTimeout : (rejectCommand s).replyTimeout = s.replyTimeout := rfl
@[simp] theorem rejectCommand_settle : (rejectCommand s).settle = s.settle := rfl
@[simp] theorem rejectCommand_txlen : (rejectCommand s).txlen = s.txlen := rfl
@[simp] theorem rejectCommand_rxlen : (rejectCommand s).rxlen = s.rxlen := rfl
@[simp] theorem rejectCommand_flen : (rejectCommand s).flen = s.flen := rfl
@[simp] theorem rejectCommand_dlCnt : (rejectCommand s).dlCnt = s.dlCnt := rfl
@[simp] theorem rejectCommand_txIdx : (rejectCommand s).txIdx = s.txIdx := rfl
@[simp] theorem rejectCommand_swipeDisc : (rejectCommand s).swipeDisc = s.swipeDisc := rfl
@[simp] theorem rejectCommand_p0 : (rejectCommand s).p0 = s.p0 := rfl
@[simp] theorem rejectCommand_p1 : (rejectCommand s).p1 = s.p1 := rfl
@[simp] theorem rejectCommand_pbufTx : (rejectCommand s).pbufTx = s.pbufTx := rfl
@[simp] theorem rejectCommand_pbufRx : (rejectCommand s).pbufRx = s.pbufRx := rfl
@[simp] theorem rejectCommand_fbuf : (rejectCommand s).fbuf = s.fbuf := rfl
@[simp] theorem rejectCommand_inputs : (rejectCommand s).inputs = s.inputs := rfl
@[simp] theorem rejectCommand_cycle : (rejectCommand s).cycle = s.cycle := rfl
@[simp] theorem rejectCommand_out : (rejectCommand s).out = s.out := rfl

end

section
variable (s : State)

@[simp] theorem busError_xstate : (busError s).xstate = s.xstate := rfl
@[simp] theorem busError_done : (busError s).done = s.done := rfl
@[simp] theorem busError_phase : (busError s).phase = s.phase := rfl
@[simp] theorem busError_rxDrop : (busError s).rxDrop = s.rxDrop := rfl
@[simp] theorem busError_cmdRej : (busError s).cmdRej = s.cmdRej := rfl
@[simp] theorem busError_busErr : (busError s).busErr = true := rfl
@[simp] theorem busError_wrRej : (busError s).wrRej = s.wrRej := rfl
@[simp] theorem busError_cmd : (busError s).cmd = s.cmd := rfl
@[simp] theorem busError_resClass : (busError s).resClass = s.resClass := rfl
@[simp] theorem busError_resErr : (busError s).resErr = s.resErr := rfl
@[simp] theorem busError_resValue : (busError s).resValue = s.resValue := rfl
@[simp] theorem busError_ie : (busError s).ie = s.ie := rfl
@[simp] theorem busError_swipeFramed : (busError s).swipeFramed = s.swipeFramed := rfl
@[simp] theorem busError_slotAscii : (busError s).slotAscii = s.slotAscii := rfl
@[simp] theorem busError_replyTimeout : (busError s).replyTimeout = s.replyTimeout := rfl
@[simp] theorem busError_settle : (busError s).settle = s.settle := rfl
@[simp] theorem busError_txlen : (busError s).txlen = s.txlen := rfl
@[simp] theorem busError_rxlen : (busError s).rxlen = s.rxlen := rfl
@[simp] theorem busError_flen : (busError s).flen = s.flen := rfl
@[simp] theorem busError_dlCnt : (busError s).dlCnt = s.dlCnt := rfl
@[simp] theorem busError_txIdx : (busError s).txIdx = s.txIdx := rfl
@[simp] theorem busError_swipeDisc : (busError s).swipeDisc = s.swipeDisc := rfl
@[simp] theorem busError_p0 : (busError s).p0 = s.p0 := rfl
@[simp] theorem busError_p1 : (busError s).p1 = s.p1 := rfl
@[simp] theorem busError_pbufTx : (busError s).pbufTx = s.pbufTx := rfl
@[simp] theorem busError_pbufRx : (busError s).pbufRx = s.pbufRx := rfl
@[simp] theorem busError_fbuf : (busError s).fbuf = s.fbuf := rfl
@[simp] theorem busError_inputs : (busError s).inputs = s.inputs := rfl
@[simp] theorem busError_cycle : (busError s).cycle = s.cycle := rfl
@[simp] theorem busError_out : (busError s).out = s.out := rfl

end

section
variable (s : State)

@[simp] theorem refuseWrite_xstate : (refuseWrite s).xstate = s.xstate := rfl
@[simp] theorem refuseWrite_done : (refuseWrite s).done = s.done := rfl
@[simp] theorem refuseWrite_phase : (refuseWrite s).phase = s.phase := rfl
@[simp] theorem refuseWrite_rxDrop : (refuseWrite s).rxDrop = s.rxDrop := rfl
@[simp] theorem refuseWrite_cmdRej : (refuseWrite s).cmdRej = s.cmdRej := rfl
@[simp] theorem refuseWrite_busErr : (refuseWrite s).busErr = s.busErr := rfl
@[simp] theorem refuseWrite_wrRej : (refuseWrite s).wrRej = true := rfl
@[simp] theorem refuseWrite_cmd : (refuseWrite s).cmd = s.cmd := rfl
@[simp] theorem refuseWrite_resClass : (refuseWrite s).resClass = s.resClass := rfl
@[simp] theorem refuseWrite_resErr : (refuseWrite s).resErr = s.resErr := rfl
@[simp] theorem refuseWrite_resValue : (refuseWrite s).resValue = s.resValue := rfl
@[simp] theorem refuseWrite_ie : (refuseWrite s).ie = s.ie := rfl
@[simp] theorem refuseWrite_swipeFramed : (refuseWrite s).swipeFramed = s.swipeFramed := rfl
@[simp] theorem refuseWrite_slotAscii : (refuseWrite s).slotAscii = s.slotAscii := rfl
@[simp] theorem refuseWrite_replyTimeout : (refuseWrite s).replyTimeout = s.replyTimeout := rfl
@[simp] theorem refuseWrite_settle : (refuseWrite s).settle = s.settle := rfl
@[simp] theorem refuseWrite_txlen : (refuseWrite s).txlen = s.txlen := rfl
@[simp] theorem refuseWrite_rxlen : (refuseWrite s).rxlen = s.rxlen := rfl
@[simp] theorem refuseWrite_flen : (refuseWrite s).flen = s.flen := rfl
@[simp] theorem refuseWrite_dlCnt : (refuseWrite s).dlCnt = s.dlCnt := rfl
@[simp] theorem refuseWrite_txIdx : (refuseWrite s).txIdx = s.txIdx := rfl
@[simp] theorem refuseWrite_swipeDisc : (refuseWrite s).swipeDisc = s.swipeDisc := rfl
@[simp] theorem refuseWrite_p0 : (refuseWrite s).p0 = s.p0 := rfl
@[simp] theorem refuseWrite_p1 : (refuseWrite s).p1 = s.p1 := rfl
@[simp] theorem refuseWrite_pbufTx : (refuseWrite s).pbufTx = s.pbufTx := rfl
@[simp] theorem refuseWrite_pbufRx : (refuseWrite s).pbufRx = s.pbufRx := rfl
@[simp] theorem refuseWrite_fbuf : (refuseWrite s).fbuf = s.fbuf := rfl
@[simp] theorem refuseWrite_inputs : (refuseWrite s).inputs = s.inputs := rfl
@[simp] theorem refuseWrite_cycle : (refuseWrite s).cycle = s.cycle := rfl
@[simp] theorem refuseWrite_out : (refuseWrite s).out = s.out := rfl

end

section
variable (s : State)

@[simp] theorem clearSticky_xstate : (clearSticky s).xstate = s.xstate := rfl
@[simp] theorem clearSticky_done : (clearSticky s).done = s.done := rfl
@[simp] theorem clearSticky_phase : (clearSticky s).phase = s.phase := rfl
@[simp] theorem clearSticky_rxDrop : (clearSticky s).rxDrop = false := rfl
@[simp] theorem clearSticky_cmdRej : (clearSticky s).cmdRej = false := rfl
@[simp] theorem clearSticky_busErr : (clearSticky s).busErr = false := rfl
@[simp] theorem clearSticky_wrRej : (clearSticky s).wrRej = false := rfl
@[simp] theorem clearSticky_cmd : (clearSticky s).cmd = s.cmd := rfl
@[simp] theorem clearSticky_resClass : (clearSticky s).resClass = s.resClass := rfl
@[simp] theorem clearSticky_resErr : (clearSticky s).resErr = s.resErr := rfl
@[simp] theorem clearSticky_resValue : (clearSticky s).resValue = s.resValue := rfl
@[simp] theorem clearSticky_ie : (clearSticky s).ie = s.ie := rfl
@[simp] theorem clearSticky_swipeFramed : (clearSticky s).swipeFramed = s.swipeFramed := rfl
@[simp] theorem clearSticky_slotAscii : (clearSticky s).slotAscii = s.slotAscii := rfl
@[simp] theorem clearSticky_replyTimeout : (clearSticky s).replyTimeout = s.replyTimeout := rfl
@[simp] theorem clearSticky_settle : (clearSticky s).settle = s.settle := rfl
@[simp] theorem clearSticky_txlen : (clearSticky s).txlen = s.txlen := rfl
@[simp] theorem clearSticky_rxlen : (clearSticky s).rxlen = s.rxlen := rfl
@[simp] theorem clearSticky_flen : (clearSticky s).flen = s.flen := rfl
@[simp] theorem clearSticky_dlCnt : (clearSticky s).dlCnt = s.dlCnt := rfl
@[simp] theorem clearSticky_txIdx : (clearSticky s).txIdx = s.txIdx := rfl
@[simp] theorem clearSticky_swipeDisc : (clearSticky s).swipeDisc = 0 := rfl
@[simp] theorem clearSticky_p0 : (clearSticky s).p0 = s.p0 := rfl
@[simp] theorem clearSticky_p1 : (clearSticky s).p1 = s.p1 := rfl
@[simp] theorem clearSticky_pbufTx : (clearSticky s).pbufTx = s.pbufTx := rfl
@[simp] theorem clearSticky_pbufRx : (clearSticky s).pbufRx = s.pbufRx := rfl
@[simp] theorem clearSticky_fbuf : (clearSticky s).fbuf = s.fbuf := rfl
@[simp] theorem clearSticky_inputs : (clearSticky s).inputs = s.inputs := rfl
@[simp] theorem clearSticky_cycle : (clearSticky s).cycle = s.cycle := rfl
@[simp] theorem clearSticky_out : (clearSticky s).out = s.out := rfl

end

section
variable (s : State)

@[simp] theorem discardSwipe_xstate : (discardSwipe s).xstate = s.xstate := rfl
@[simp] theorem discardSwipe_done : (discardSwipe s).done = s.done := rfl
@[simp] theorem discardSwipe_phase : (discardSwipe s).phase = s.phase := rfl
@[simp] theorem discardSwipe_rxDrop : (discardSwipe s).rxDrop = s.rxDrop := rfl
@[simp] theorem discardSwipe_cmdRej : (discardSwipe s).cmdRej = s.cmdRej := rfl
@[simp] theorem discardSwipe_busErr : (discardSwipe s).busErr = s.busErr := rfl
@[simp] theorem discardSwipe_wrRej : (discardSwipe s).wrRej = s.wrRej := rfl
@[simp] theorem discardSwipe_cmd : (discardSwipe s).cmd = s.cmd := rfl
@[simp] theorem discardSwipe_resClass : (discardSwipe s).resClass = s.resClass := rfl
@[simp] theorem discardSwipe_resErr : (discardSwipe s).resErr = s.resErr := rfl
@[simp] theorem discardSwipe_resValue : (discardSwipe s).resValue = s.resValue := rfl
@[simp] theorem discardSwipe_ie : (discardSwipe s).ie = s.ie := rfl
@[simp] theorem discardSwipe_swipeFramed : (discardSwipe s).swipeFramed = s.swipeFramed := rfl
@[simp] theorem discardSwipe_slotAscii : (discardSwipe s).slotAscii = s.slotAscii := rfl
@[simp] theorem discardSwipe_replyTimeout : (discardSwipe s).replyTimeout = s.replyTimeout := rfl
@[simp] theorem discardSwipe_settle : (discardSwipe s).settle = s.settle := rfl
@[simp] theorem discardSwipe_txlen : (discardSwipe s).txlen = s.txlen := rfl
@[simp] theorem discardSwipe_rxlen : (discardSwipe s).rxlen = s.rxlen := rfl
@[simp] theorem discardSwipe_flen : (discardSwipe s).flen = 0 := rfl
@[simp] theorem discardSwipe_dlCnt : (discardSwipe s).dlCnt = s.dlCnt := rfl
@[simp] theorem discardSwipe_txIdx : (discardSwipe s).txIdx = s.txIdx := rfl
@[simp] theorem discardSwipe_swipeDisc : (discardSwipe s).swipeDisc = countDiscard s.swipeDisc := rfl
@[simp] theorem discardSwipe_p0 : (discardSwipe s).p0 = s.p0 := rfl
@[simp] theorem discardSwipe_p1 : (discardSwipe s).p1 = s.p1 := rfl
@[simp] theorem discardSwipe_pbufTx : (discardSwipe s).pbufTx = s.pbufTx := rfl
@[simp] theorem discardSwipe_pbufRx : (discardSwipe s).pbufRx = s.pbufRx := rfl
@[simp] theorem discardSwipe_fbuf : (discardSwipe s).fbuf = s.fbuf := rfl
@[simp] theorem discardSwipe_inputs : (discardSwipe s).inputs = s.inputs := rfl
@[simp] theorem discardSwipe_cycle : (discardSwipe s).cycle = s.cycle := rfl
@[simp] theorem discardSwipe_out : (discardSwipe s).out = s.out := rfl

end

section
variable (v : Word) (s : State)

@[simp] theorem setCfg_xstate : (setCfg v s).xstate = s.xstate := rfl
@[simp] theorem setCfg_done : (setCfg v s).done = s.done := rfl
@[simp] theorem setCfg_phase : (setCfg v s).phase = s.phase := rfl
@[simp] theorem setCfg_rxDrop : (setCfg v s).rxDrop = s.rxDrop := rfl
@[simp] theorem setCfg_cmdRej : (setCfg v s).cmdRej = s.cmdRej := rfl
@[simp] theorem setCfg_busErr : (setCfg v s).busErr = s.busErr := rfl
@[simp] theorem setCfg_wrRej : (setCfg v s).wrRej = s.wrRej := rfl
@[simp] theorem setCfg_cmd : (setCfg v s).cmd = s.cmd := rfl
@[simp] theorem setCfg_resClass : (setCfg v s).resClass = s.resClass := rfl
@[simp] theorem setCfg_resErr : (setCfg v s).resErr = s.resErr := rfl
@[simp] theorem setCfg_resValue : (setCfg v s).resValue = s.resValue := rfl
@[simp] theorem setCfg_ie : (setCfg v s).ie = v.getLsbD 0 := rfl
@[simp] theorem setCfg_swipeFramed : (setCfg v s).swipeFramed = v.getLsbD 1 := rfl
@[simp] theorem setCfg_slotAscii : (setCfg v s).slotAscii = v.getLsbD 2 := rfl
@[simp] theorem setCfg_replyTimeout : (setCfg v s).replyTimeout = s.replyTimeout := rfl
@[simp] theorem setCfg_settle : (setCfg v s).settle = s.settle := rfl
@[simp] theorem setCfg_txlen : (setCfg v s).txlen = s.txlen := rfl
@[simp] theorem setCfg_rxlen : (setCfg v s).rxlen = s.rxlen := rfl
@[simp] theorem setCfg_flen : (setCfg v s).flen = s.flen := rfl
@[simp] theorem setCfg_dlCnt : (setCfg v s).dlCnt = s.dlCnt := rfl
@[simp] theorem setCfg_txIdx : (setCfg v s).txIdx = s.txIdx := rfl
@[simp] theorem setCfg_swipeDisc : (setCfg v s).swipeDisc = s.swipeDisc := rfl
@[simp] theorem setCfg_p0 : (setCfg v s).p0 = s.p0 := rfl
@[simp] theorem setCfg_p1 : (setCfg v s).p1 = s.p1 := rfl
@[simp] theorem setCfg_pbufTx : (setCfg v s).pbufTx = s.pbufTx := rfl
@[simp] theorem setCfg_pbufRx : (setCfg v s).pbufRx = s.pbufRx := rfl
@[simp] theorem setCfg_fbuf : (setCfg v s).fbuf = s.fbuf := rfl
@[simp] theorem setCfg_inputs : (setCfg v s).inputs = s.inputs := rfl
@[simp] theorem setCfg_cycle : (setCfg v s).cycle = s.cycle := rfl
@[simp] theorem setCfg_out : (setCfg v s).out = s.out := rfl

end

section
variable (inp : Inputs) (s : State)

@[simp] theorem advance_xstate : (advance inp s).xstate = s.xstate := rfl
@[simp] theorem advance_done : (advance inp s).done = s.done := rfl
@[simp] theorem advance_phase : (advance inp s).phase = s.phase := rfl
@[simp] theorem advance_rxDrop : (advance inp s).rxDrop = s.rxDrop := rfl
@[simp] theorem advance_cmdRej : (advance inp s).cmdRej = s.cmdRej := rfl
@[simp] theorem advance_busErr : (advance inp s).busErr = s.busErr := rfl
@[simp] theorem advance_wrRej : (advance inp s).wrRej = s.wrRej := rfl
@[simp] theorem advance_cmd : (advance inp s).cmd = s.cmd := rfl
@[simp] theorem advance_resClass : (advance inp s).resClass = s.resClass := rfl
@[simp] theorem advance_resErr : (advance inp s).resErr = s.resErr := rfl
@[simp] theorem advance_resValue : (advance inp s).resValue = s.resValue := rfl
@[simp] theorem advance_ie : (advance inp s).ie = s.ie := rfl
@[simp] theorem advance_swipeFramed : (advance inp s).swipeFramed = s.swipeFramed := rfl
@[simp] theorem advance_slotAscii : (advance inp s).slotAscii = s.slotAscii := rfl
@[simp] theorem advance_replyTimeout : (advance inp s).replyTimeout = s.replyTimeout := rfl
@[simp] theorem advance_settle : (advance inp s).settle = s.settle := rfl
@[simp] theorem advance_txlen : (advance inp s).txlen = s.txlen := rfl
@[simp] theorem advance_rxlen : (advance inp s).rxlen = s.rxlen := rfl
@[simp] theorem advance_flen : (advance inp s).flen = s.flen := rfl
@[simp] theorem advance_dlCnt : (advance inp s).dlCnt = s.dlCnt := rfl
@[simp] theorem advance_txIdx : (advance inp s).txIdx = s.txIdx := rfl
@[simp] theorem advance_swipeDisc : (advance inp s).swipeDisc = s.swipeDisc := rfl
@[simp] theorem advance_p0 : (advance inp s).p0 = s.p0 := rfl
@[simp] theorem advance_p1 : (advance inp s).p1 = s.p1 := rfl
@[simp] theorem advance_pbufTx : (advance inp s).pbufTx = s.pbufTx := rfl
@[simp] theorem advance_pbufRx : (advance inp s).pbufRx = s.pbufRx := rfl
@[simp] theorem advance_fbuf : (advance inp s).fbuf = s.fbuf := rfl
@[simp] theorem advance_inputs : (advance inp s).inputs = s.inputs.tail := rfl
@[simp] theorem advance_cycle : (advance inp s).cycle = s.cycle + 1 := rfl
@[simp] theorem advance_out : (advance inp s).out = outputs inp s := rfl

end

end Sys2Proof.Laws
end

