-- ==== Sys2Proof/Laws/Ops.lean ====
section
/-! SUPPORT. One lemma per shared operation, saying once everything it can do: the issue of a command, the sending of a frame, the
finish, the swipe buffer's end, the tick, the engine's part of a cycle, the host's access, and the whole cycle. -/

namespace Sys2Proof.Laws

open Sys2Proof.Machine Sys2Proof.Safety

/-! ## The parameters and the lists -/

theorem pmax_bounds : 8 ≤ Config.pmax ∧ Config.pmax ≤ 509 := by
  unfold Config.pmax; omega

theorem fbufDepth_eq : Config.fbufDepth = 2 * Config.pmax + 5 := rfl

@[simp] theorem frameBytes_length (s : State) : s.frameBytes.length = s.flen.toNat := by simp [State.frameBytes]

@[simp] theorem txPayload_length (s : State) : s.txPayload.length = s.txlen.toNat := by simp [State.txPayload]

theorem busy_iff (s : State) : s.busy = true ↔ s.xstate = .commandSent ∨ s.xstate = .awaitingReply := by
  unfold State.busy; cases s.xstate <;> simp

/-! ## Finishing, sending, issuing -/

/-- A finish without a payload. -/
theorem finish_none (c : Option Instr) (cls : ResultClass) (err : ErrCode) (value : Byte) (s : State) :
    Finishes cls err value (terminalState cls c) none s (finish c cls err value none s) :=
  ⟨rfl, rfl, rfl⟩

/-- A finish with a payload. -/
theorem finish_some (c : Option Instr) (cls : ResultClass) (err : ErrCode) (value : Byte) (bytes : List Byte) (s : State)
    (hlen : bytes.length < 65536) (hwf : s.pbufRx.wf = true) :
    Finishes cls err value (terminalState cls c) (some bytes) s (finish c cls err value (some bytes) s) := by
  refine ⟨rfl, ?_, fun a => ?_⟩
  · simp [finish, Nat.mod_eq_of_lt hlen]
  · simp only [finish]
    rw [read_store _ _ _ hwf]
    simp

/-- A frame that is sent. -/
theorem sendFrame_starts (frame : List Byte) (ph : Bool) (s : State) (hlen : frame.length < 65536) (hwf : s.fbuf.wf = true) :
    StartsSending frame ph s (sendFrame frame ph s) := by
  refine ⟨rfl, ?_, fun a => ?_⟩
  · simp [sendFrame, Nat.mod_eq_of_lt hlen]
  · simp only [sendFrame]
    rw [read_store _ _ _ hwf]
    simp

/-- Issuing a command either fails a check or starts it. -/
theorem issue_cases (i : Instr) (checks : List (Bool × ErrCode)) (start : State → State) (s : State) :
    (∃ code, firstFailure checks = some code
        ∧ issue i checks start s = finish (some i) .invalidArgument code (commandFailValue i) none (opened s))
      ∨ (firstFailure checks = none ∧ issue i checks start s = start (opened s)) := by
  unfold issue
  cases h : firstFailure checks with
  | none => exact .inr ⟨rfl, rfl⟩
  | some code => exact .inl ⟨code, rfl, rfl⟩

/-- No check of a list fails exactly when each of them passes. -/
theorem firstFailure_none (checks : List (Bool × ErrCode)) :
    firstFailure checks = none ↔ ∀ c ∈ checks, c.1 = false := by
  induction checks with
  | nil => simp [firstFailure]
  | cons c rest ih =>
    obtain ⟨fails, code⟩ := c
    cases fails <;> simp [firstFailure, ih]

/-- A failing check is one of the list, and the code it answers is its own. -/
theorem firstFailure_some (checks : List (Bool × ErrCode)) (code : ErrCode) (h : firstFailure checks = some code) :
    (true, code) ∈ checks := by
  induction checks with
  | nil => simp [firstFailure] at h
  | cons c rest ih =>
    obtain ⟨fails, e⟩ := c
    cases fails with
    | false => simp only [firstFailure] at h; simp [ih h]
    | true => simp only [firstFailure, if_true, Option.some.injEq] at h; simp [h]

/-- Every command answers a next state when it is issued. -/
theorem exec_next (i : Instr) (s : State) : ∃ t, exec i s = .next t := by cases i <;> exact ⟨_, rfl⟩

/-! ## The frame that a command sends -/

/-- Encode's only error is TERM_COLLISION. -/
theorem encodeFrame_error (p : Profile) (payload : List Byte) (code : ErrCode) (h : encodeFrame p payload = .error code) :
    code = .termCollision := by
  unfold encodeFrame at h
  split at h
  · simpa using h.symm
  · cases h

theorem frameOf_ok {p : Profile} {payload frame : List Byte} (h : encodeFrame p payload = .ok frame) :
    frameOf p payload = frame := by simp [frameOf, h]

theorem collides_eq_false {p : Profile} {payload : List Byte} :
    collides p payload = false ↔ ∃ frame, encodeFrame p payload = .ok frame := by
  unfold collides
  cases h : encodeFrame p payload <;> simp

theorem collides_eq_true {p : Profile} {payload : List Byte} :
    collides p payload = true ↔ encodeFrame p payload = .error .termCollision := by
  unfold collides
  cases h : encodeFrame p payload with
  | ok frame => simp
  | error code => simp [encodeFrame_error p payload code h]

theorem emptyFrame_eq_true {p : Profile} {payload : List Byte} :
    emptyFrame p payload = true ↔ encodeFrame p payload = .ok [] := by
  unfold emptyFrame
  cases h : encodeFrame p payload <;> simp

/-! ## The swipe buffer, the tick, the engine's part -/

/-- A swipe buffer that ended: the card finishes the command, or the buffer is discarded. -/
theorem endSwipe_cases (c : Option Instr) (card : List Byte) (s : State) :
    (cardOk card = true ∧ endSwipe c card s = (finish c .ok .noError 0 (some card) s, true))
      ∨ (cardOk card = false ∧ endSwipe c card s = (discardSwipe s, false)) := by
  unfold endSwipe
  cases h : cardOk card <;> simp

/-- A byte of a swipe: stored, a finish with a card, or a discard. -/
theorem swipeByte_cases (b : Byte) (s : State) :
    (∃ card, cardOk card = true
        ∧ swipeByte b s = (finish s.command .ok .noError 0 (some card) (appendByte b s), true))
      ∨ swipeByte b s = (discardSwipe (appendByte b s), false)
      ∨ (s.flen.toNat + 1 ≠ Config.fbufDepth ∧ swipeByte b s = (appendByte b s, false)) := by
  unfold swipeByte
  dsimp only
  split
  · split
    · split
      · rename_i card _
        rcases endSwipe_cases s.command card (appendByte b s) with ⟨h, e⟩ | ⟨-, e⟩
        · exact .inl ⟨card, h, e⟩
        · exact .inr (.inl e)
      · exact .inr (.inl rfl)
    · split
      · exact .inr (.inl rfl)
      · rename_i h; exact .inr (.inr ⟨by simpa using h, rfl⟩)
  · split
    · rcases endSwipe_cases s.command s.frameBytes (appendByte b s) with ⟨h, e⟩ | ⟨-, e⟩
      · exact .inl ⟨s.frameBytes, h, e⟩
      · exact .inr (.inl e)
    · split
      · exact .inr (.inl rfl)
      · rename_i h; exact .inr (.inr ⟨by simpa using h, rfl⟩)

/-- A byte of an awaited reply: a payload is interpreted, a bad frame or a full buffer finishes MALFORMED, or waiting goes on. -/
theorem replyByte_cases (b : Byte) (s : State) :
    (∃ payload, decodeFrame (exchangeParams s.command s.phase s).profile (exchangeParams s.command s.phase s).shape
          (exchangeParams s.command s.phase s).n (s.frameBytes ++ [b]) = .ok payload
        ∧ replyByte b s = (interpret s.command payload (appendByte b s), true))
      ∨ (∃ code, replyByte b s = (finish s.command .malformed code (failValue s.command) none (appendByte b s), true)
        ∧ classAllows .malformed code = true
        ∧ (code = budgetError (exchangeParams s.command s.phase s).profile
          ∨ decodeFrame (exchangeParams s.command s.phase s).profile (exchangeParams s.command s.phase s).shape
          (exchangeParams s.command s.phase s).n (s.frameBytes ++ [b]) = .error code))
      ∨ (s.flen.toNat + 1 ≠ Config.fbufDepth ∧ replyByte b s = (appendByte b s, false)) := by
  unfold replyByte
  dsimp only
  split
  · split
    · rename_i payload h
      exact .inl ⟨payload, h, rfl⟩
    · rename_i code h
      exact .inr (.inl ⟨code, rfl, decodeFrame_error h, .inr h⟩)
  · split
    · refine .inr (.inl ⟨_, rfl, ?_, .inl rfl⟩)
      unfold budgetError
      split <;> decide
    · rename_i h; exact .inr (.inr ⟨by simpa using h, rfl⟩)

/-- A decoded reply: a finish OK with its payload, MALFORMED without one, a vend turned down with it, or the vend frame's start. -/
theorem interpret_cases (c : Option Instr) (payload : List Byte) (s : State) :
    (∃ value, interpret c payload s = finish c .ok .noError value (some payload) s)
      ∨ (∃ value, (c = some .queryInv ∨ (∃ slot, c = some (.hasSoda slot)) ∨ ∃ slot, c = some (.vend slot))
          ∧ interpret c payload s = finish c .malformed .unexpectedReply value none s)
      ∨ (∃ slot, c = some (.vend slot) ∧ s.phase = true
          ∧ interpret c payload s = finish c .negative .noError 3 (some payload) s)
      ∨ ∃ slot bitmap, c = some (.vend slot) ∧ s.phase = false ∧ invBitmap payload = some bitmap
          ∧ stocked bitmap slot = true ∧ interpret c payload s = startExchange (.vend slot) true s := by
  cases c with
  | none => exact .inl ⟨0, rfl⟩
  | some i =>
    cases i with
    | queryInv =>
      simp only [interpret, replyQueryInv]
      split
      · exact .inl ⟨_, rfl⟩
      · exact .inr (.inl ⟨_, by simp, rfl⟩)
    | hasSoda slot =>
      simp only [interpret, replyHasSoda]
      split
      · exact .inl ⟨_, rfl⟩
      · exact .inr (.inl ⟨_, .inr (.inl ⟨_, rfl⟩), rfl⟩)
    | vend slot =>
      simp only [interpret]
      split
      · rename_i hp
        unfold replyVendConfirm
        split
        · exact .inl ⟨_, rfl⟩
        · exact .inr (.inr (.inl ⟨slot, rfl, hp, rfl⟩))
      · rename_i hp
        unfold replyVendInventory
        split
        · rename_i bitmap hb
          split
          · rename_i hs
            exact .inr (.inr (.inr ⟨slot, bitmap, rfl, by simpa using hp, hb, hs, rfl⟩))
          · exact .inl ⟨_, rfl⟩
        · exact .inr (.inl ⟨_, .inr (.inr ⟨_, rfl⟩), rfl⟩)
    | _ => exact .inl ⟨_, rfl⟩

/-- The engine of a machine that is not busy only drops a byte. -/
theorem engineCycle_not_busy (inp : Inputs) (s : State) (h : s.busy = false) : engineCycle inp s = dropRx inp.rx s := by
  unfold engineCycle enginePart
  unfold State.busy at h ⊢
  cases hx : s.xstate <;> simp_all

/-- The transmitter's part: an error ends the command, a byte passes, the last byte ends the transmission, or nothing happens. -/
theorem txPart_cases (inp : Inputs) (s : State) :
    (inp.txErr = true ∧ txPart inp s = (txError s, true))
      ∨ (inp.txErr = false ∧ inp.txReady = true ∧ s.txIdx + 1 = s.flen
          ∧ txPart inp s = (txComplete { s with txIdx := s.txIdx + 1 }, true))
      ∨ (inp.txErr = false ∧ inp.txReady = true ∧ s.txIdx + 1 ≠ s.flen
          ∧ txPart inp s = ({ s with txIdx := s.txIdx + 1 }, false))
      ∨ (inp.txErr = false ∧ inp.txReady = false ∧ txPart inp s = (s, false)) := by
  unfold txPart txHandoff
  cases inp.txErr <;> cases inp.txReady <;> simp
  exact Classical.em _

/-- An expired deadline ends the command, by state and wait mode; a machine that is not busy is left alone. -/
theorem expire_cases (s : State) :
    (s.busy = false ∧ expire s = s)
      ∨ (s.xstate = .commandSent
        ∧ expire s = finish s.command .ioFailure .shortWrite (failValue s.command) none s)
      ∨ (s.xstate = .awaitingReply ∧ waitMode s.command = .settle ∧ expire s = finish s.command .ok .noError 0 none s)
      ∨ (s.xstate = .awaitingReply ∧ waitMode s.command ≠ .settle
        ∧ expire s = finish s.command .timedOut .noError (failValue s.command) none s) := by
  have swipe : waitMode s.command = .swipe → failValue s.command = 0 := by
    intro h
    cases hc : s.command with
    | none => rfl
    | some i =>
      rw [hc] at h
      cases i with
      | exchange _ shape _ => cases shape <;> cases h
      | vend _ => cases h
      | _ => rfl
  unfold expire State.busy
  cases s.xstate <;> simp
  cases h : waitMode s.command <;> simp
  exact congrArg (finish s.command .timedOut .noError · none s) (swipe h).symm

/-- A tick counts the deadline down, or expires it. -/
theorem countTick_cases (s : State) :
    (1 < s.dlCnt ∧ countTick s = { s with dlCnt := s.dlCnt - 1 })
      ∨ (¬ 1 < s.dlCnt ∧ countTick s = expire { s with dlCnt := 0 }) := by
  unfold countTick
  split
  · exact .inl ⟨by assumption, rfl⟩
  · exact .inr ⟨by assumption, rfl⟩

/-- The fields the engine neither reads nor writes: the host's payload and the outputs. -/
def withQuiet (m : Memory) (k : Half) (o : Outputs) (s : State) : State := { s with pbufTx := m, txlen := k, out := o }

/-- The parameters of a running exchange, but for its payload, do not depend on the host's payload. -/
theorem exchangeParams_quiet (m : Memory) (k : Half) (o : Outputs) (c : Option Instr) (ph : Bool) (s : State) :
    (exchangeParams c ph (withQuiet m k o s)).profile = (exchangeParams c ph s).profile
      ∧ (exchangeParams c ph (withQuiet m k o s)).shape = (exchangeParams c ph s).shape
      ∧ (exchangeParams c ph (withQuiet m k o s)).n = (exchangeParams c ph s).n
      ∧ (exchangeParams c ph (withQuiet m k o s)).wait = (exchangeParams c ph s).wait := by
  cases c with
  | none => exact ⟨rfl, rfl, rfl, rfl⟩
  | some i =>
    cases i with
    | vend slot => cases ph <;> exact ⟨rfl, rfl, rfl, rfl⟩
    | exchange psel shape len => cases psel <;> cases shape <;> exact ⟨rfl, rfl, rfl, rfl⟩
    | _ => exact ⟨rfl, rfl, rfl, rfl⟩

theorem interpret_quiet (m : Memory) (k : Half) (o : Outputs) (c : Option Instr) (payload : List Byte) (s : State) :
    interpret c payload (withQuiet m k o s) = withQuiet m k o (interpret c payload s) := by
  cases c with
  | none => rfl
  | some i =>
    cases i with
    | queryInv => simp only [interpret, replyQueryInv]; split <;> rfl
    | hasSoda slot => simp only [interpret, replyHasSoda]; split <;> rfl
    | vend slot =>
      simp only [interpret, replyVendConfirm, replyVendInventory, show (withQuiet m k o s).phase = s.phase from rfl]
      repeat' split
      all_goals rfl
    | _ => rfl

theorem replyByte_quiet (m : Memory) (k : Half) (o : Outputs) (b : Byte) (s : State) :
    replyByte b (withQuiet m k o s) = (withQuiet m k o (replyByte b s).1, (replyByte b s).2) := by
  obtain ⟨h1, h2, h3, -⟩ := exchangeParams_quiet m k o s.command s.phase s
  unfold replyByte
  dsimp only
  rw [show (withQuiet m k o s).command = s.command from rfl, show (withQuiet m k o s).phase = s.phase from rfl,
    show (withQuiet m k o s).frameBytes = s.frameBytes from rfl, h1, h2, h3,
    show appendByte b (withQuiet m k o s) = withQuiet m k o (appendByte b s) from rfl]
  split
  · split
    · rw [interpret_quiet]
    · rfl
  · split <;> rfl

theorem swipeByte_quiet (m : Memory) (k : Half) (o : Outputs) (b : Byte) (s : State) :
    swipeByte b (withQuiet m k o s) = (withQuiet m k o (swipeByte b s).1, (swipeByte b s).2) := by
  unfold swipeByte endSwipe
  dsimp only
  rw [show (withQuiet m k o s).command = s.command from rfl, show (withQuiet m k o s).p1 = s.p1 from rfl,
    show (withQuiet m k o s).frameBytes = s.frameBytes from rfl,
    show (withQuiet m k o s).swipeFramed = s.swipeFramed from rfl,
    show appendByte b (withQuiet m k o s) = withQuiet m k o (appendByte b s) from rfl]
  repeat' split
  all_goals rfl

theorem txComplete_quiet (m : Memory) (k : Half) (o : Outputs) (s : State) :
    txComplete (withQuiet m k o s) = withQuiet m k o (txComplete s) := by
  have h := (exchangeParams_quiet m k o s.command s.phase { s with flen := 0 }).2.2.2
  unfold txComplete
  rw [show (withQuiet m k o s).command = s.command from rfl, show (withQuiet m k o s).settle = s.settle from rfl]
  dsimp only
  split
  · rfl
  · exact congrArg (fun d => ({ withQuiet m k o { s with flen := 0 } with xstate := .awaitingReply, dlCnt := d } : State)) h

theorem txPart_quiet (m : Memory) (k : Half) (o : Outputs) (inp : Inputs) (s : State) :
    txPart inp (withQuiet m k o s) = (withQuiet m k o (txPart inp s).1, (txPart inp s).2) := by
  unfold txPart txHandoff
  dsimp only
  rw [show (withQuiet m k o s).txIdx = s.txIdx from rfl, show (withQuiet m k o s).flen = s.flen from rfl]
  repeat' split
  all_goals first
    | rfl
    | exact Prod.ext (txComplete_quiet m k o { s with txIdx := s.txIdx + 1 }) rfl

theorem enginePart_quiet (m : Memory) (k : Half) (o : Outputs) (inp : Inputs) (s : State) :
    enginePart inp (withQuiet m k o s) = (withQuiet m k o (enginePart inp s).1, (enginePart inp s).2) := by
  have drop : ∀ t, dropRx inp.rx (withQuiet m k o t) = withQuiet m k o (dropRx inp.rx t) := by
    intro t; unfold dropRx; split <;> rfl
  unfold enginePart
  rw [show (withQuiet m k o s).xstate = s.xstate from rfl]
  split
  · rw [txPart_quiet]; simp only [drop]
  · split
    · unfold rxByte
      rw [show (withQuiet m k o s).command = s.command from rfl]
      split
      · exact replyByte_quiet m k o _ s
      · rfl
      · exact swipeByte_quiet m k o _ s
    · rfl
  all_goals simp only [drop]

theorem countTick_quiet (m : Memory) (k : Half) (o : Outputs) (s : State) :
    countTick (withQuiet m k o s) = withQuiet m k o (countTick s) := by
  unfold countTick expire
  rw [show (withQuiet m k o s).dlCnt = s.dlCnt from rfl]
  split
  · rfl
  · rw [show ({ withQuiet m k o s with dlCnt := 0 } : State) = withQuiet m k o { s with dlCnt := 0 } from rfl]
    rw [show (withQuiet m k o { s with dlCnt := 0 }).xstate = s.xstate from rfl,
      show (withQuiet m k o { s with dlCnt := 0 }).command = ({ s with dlCnt := 0 } : State).command from rfl]
    dsimp only
    split
    · rfl
    · split <;> rfl
    all_goals rfl

/-- The engine neither reads nor writes the host's payload and the outputs. -/
theorem engineCycle_quiet (m : Memory) (k : Half) (o : Outputs) (inp : Inputs) (s : State) :
    engineCycle inp (withQuiet m k o s) = withQuiet m k o (engineCycle inp s) := by
  unfold engineCycle
  rw [enginePart_quiet, show (withQuiet m k o s).busy = s.busy from rfl]
  dsimp only
  split
  · rw [countTick_quiet]
  · rfl

/-- The engine keeps the host's payload and the outputs. -/
theorem engineCycle_keeps (inp : Inputs) (s : State) :
    (engineCycle inp s).pbufTx = s.pbufTx ∧ (engineCycle inp s).txlen = s.txlen ∧ (engineCycle inp s).out = s.out := by
  have h := engineCycle_quiet s.pbufTx s.txlen s.out inp s
  rw [show withQuiet s.pbufTx s.txlen s.out s = s from rfl] at h
  rw [h]; exact ⟨rfl, rfl, rfl⟩

/-- The engine does not see the host's access. -/
theorem engineCycle_bus (inp : Inputs) (bus : BusAccess) (s : State) :
    engineCycle { inp with bus := bus } s = engineCycle inp s := rfl

/-- A running command is no codec command, so the class alone decides the state it ends in. -/
theorem terminalState_of_ready {i : Instr} {s : State} (h : ready i s = true) (cls : ResultClass) :
    terminalState cls (some i) = classState cls := by
  cases i <;> simp [ready] at h <;> rfl

/-- A running command's wait deadline in ticks (41_exchange.md R167). -/
theorem commandParams_wait {i : Instr} {s : State} (h : ready i s = true) (ph : Bool) :
    (commandParams i ph s).wait = BitVec.ofNat 16 (waitTicks i s) := by
  cases i with
  | vend slot => cases ph <;> simp [commandParams, vendParams, inventoryParams, waitTicks]
  | exchange psel shape len => cases shape <;> simp [commandParams, exchangeWait, waitTicks]
  | encode psel => simp [ready] at h
  | decode psel shape len => simp [ready] at h
  | cksum psel => simp [ready] at h
  | _ => simp [commandParams, inventoryParams, stripeParams, noExchange, buttonTicks, waitTicks]

/-! ## The host's access and the whole cycle -/

/-- What the register map answers is one of its rows. -/
theorem registerMap_mem {k : Nat} {target : Target} (h : registerMap.lookup k = some target) : (k, target) ∈ registerMap := by
  obtain ⟨l₁, l₂, hl, -⟩ := List.lookup_eq_some_iff.mp h
  rw [hl]; simp

/-- A target of the register map is no buffer entry. -/
theorem registerMap_lookup (k : Nat) (i : Nat) :
    registerMap.lookup k ≠ some (.pbufTx i) ∧ registerMap.lookup k ≠ some (.pbufRx i)
      ∧ registerMap.lookup k ≠ some (.fbuf i) :=
  ⟨fun h => by have := registerMap_mem h; simp [registerMap] at this,
    fun h => by have := registerMap_mem h; simp [registerMap] at this,
    fun h => by have := registerMap_mem h; simp [registerMap] at this⟩

theorem bufferSlot_eq (mk : Nat → Target) (depth i : Nat) (target : Target) (h : bufferSlot mk depth i = some target) :
    i < depth ∧ target = mk i := by
  unfold bufferSlot at h
  split at h
  · exact ⟨by assumption, by simpa using h.symm⟩
  · cases h

/-- A buffer entry that an address names lies within its buffer, and the address is the window's base plus 4 times the index. -/
theorem targetOf_buffer {addr : Half} {i : Nat} :
    (targetOf addr = some (.pbufTx i) → i < Config.pmax ∧ addr.toNat = 0x1000 + 4 * i)
      ∧ (targetOf addr = some (.pbufRx i) → i < Config.pmax ∧ addr.toNat = 0x2000 + 4 * i)
      ∧ (targetOf addr = some (.fbuf i) → i < Config.fbufDepth ∧ addr.toNat = 0x3000 + 4 * i) := by
  unfold targetOf
  refine ⟨fun h => ?_, fun h => ?_, fun h => ?_⟩ <;>
  · repeat' split at h
    all_goals first
      | cases h
      | exact absurd h (by first | exact (registerMap_lookup _ _).1 | exact (registerMap_lookup _ _).2.1 | exact (registerMap_lookup _ _).2.2)
      | (obtain ⟨h1, h2⟩ := bufferSlot_eq _ _ _ _ h
         cases h2 <;> omega)

/-- A register that an address names is the map's, at that address. -/
theorem targetOf_register {addr : Half} {target : Target} (h : targetOf addr = some target)
    (hb : ∀ i, target ≠ .pbufTx i ∧ target ≠ .pbufRx i ∧ target ≠ .fbuf i) : (addr.toNat, target) ∈ registerMap := by
  unfold targetOf at h
  repeat' split at h
  all_goals first
    | (cases h)
    | exact registerMap_mem h
    | (have h2 := (bufferSlot_eq _ _ _ _ h).2
       first | exact absurd h2 (hb _).1 | exact absurd h2 (hb _).2.1 | exact absurd h2 (hb _).2.2)

/-- CTRL is at 0x00C alone. -/
theorem targetOf_ctrl (addr : Half) : targetOf addr = some .ctrl ↔ addr = 0x00C := by
  constructor
  · intro h
    have := targetOf_register h (by simp)
    simp [registerMap] at this
    exact BitVec.eq_of_toNat_eq this
  · rintro rfl; rfl

/-- CMD is at 0x010 alone. -/
theorem targetOf_cmd (addr : Half) : targetOf addr = some .cmd ↔ addr = 0x010 := by
  constructor
  · intro h
    have := targetOf_register h (by simp)
    simp [registerMap] at this
    exact BitVec.eq_of_toNat_eq this
  · rintro rfl; rfl

/-- The configuration and the transmit payload of x, everything else of s. -/
def withConfig (x s : State) : State :=
  { s with
    ie := x.ie, swipeFramed := x.swipeFramed, slotAscii := x.slotAscii, replyTimeout := x.replyTimeout
    settle := x.settle, p0 := x.p0, p1 := x.p1 }

/-- The host's access: nothing, a flag, a refusal, a CTRL action, a buffer or length write, a configuration write, or a command. -/
theorem hostAccess_cases {busy : Bool} {bus : BusAccess} {s t : State} (h : hostAccess busy bus s = .next t) :
    t = s ∨ t = busError s ∨ t = refuseWrite s ∨ (busy = true ∧ t = rejectCommand s)
      ∨ (∃ v, t = ctrlLengths busy v s)
      ∨ (∃ n : Half, n.toNat ≤ Config.pmax ∧ t = { s with txlen := n })
      ∨ (∃ i b, i < Config.pmax ∧ t = { s with pbufTx := s.pbufTx.write i b })
      ∨ (busy = false ∧ ∃ n : Half, n.toNat ≤ Config.fbufDepth ∧ t = { s with flen := n })
      ∨ (busy = false ∧ ∃ i b, i < Config.fbufDepth ∧ t = { s with fbuf := s.fbuf.write i b })
      ∨ (busy = false ∧ ∃ x, t = withConfig x s)
      ∨ (busy = false ∧ ∃ v i, decodeWord v = .ok i ∧ exec i (latchCommand v s) = .next t)
      ∨ (busy = false ∧ ∃ v e, decodeWord v = .error e
          ∧ t = finish none .invalidArgument .badOpcode 0 none (opened (latchCommand v s))) := by
  unfold hostAccess at h
  split at h
  · exact .inl (by simpa using h.symm)
  · exact .inl (by simpa using h.symm)
  · split at h
    · rename_i target ht
      have cfg : ∀ store : State → State, store s = withConfig (store s) s →
          (Host.Outcome.next (unlessBusy busy store s) : Host.Outcome State Fault Refusal) = .next t →
          t = refuseWrite s ∨ (busy = false ∧ ∃ x, t = withConfig x s) := by
        intro store hx ht
        unfold unlessBusy at ht
        cases busy <;> simp only [if_true, Bool.false_eq_true, if_false, Host.Outcome.next.injEq] at ht
        · exact .inr ⟨rfl, store s, by rw [← ht, ← hx]⟩
        · exact .inl ht.symm
      have lift : ∀ {A B C D E F G H I J K : Prop},
          C ∨ J → A ∨ B ∨ C ∨ D ∨ E ∨ F ∨ G ∨ H ∨ I ∨ J ∨ K := by
        rintro _ _ _ _ _ _ _ _ _ _ _ (e | e) <;> simp [e]
      cases target with
      | ctrl =>
        simp only [writeTarget, Host.Outcome.next.injEq] at h
        exact .inr (.inr (.inr (.inr (.inl ⟨_, h.symm⟩))))
      | cmd =>
        simp only [writeTarget, cmdWrite] at h
        cases busy with
        | true =>
          simp only [if_true, Host.Outcome.next.injEq] at h
          exact .inr (.inr (.inr (.inl ⟨rfl, h.symm⟩)))
        | false =>
          simp only [Bool.false_eq_true, if_false] at h
          iterate 10 refine .inr ?_
          split at h
          · rename_i i hi; exact .inl ⟨rfl, _, i, hi, h⟩
          · rename_i e he
            simp only [Host.Outcome.next.injEq] at h
            exact .inr ⟨rfl, _, e, he, h.symm⟩
      | cfg => exact lift (cfg _ (by rfl) h)
      | replyTimeout => exact lift (cfg _ (by rfl) h)
      | settle => exact lift (cfg _ (by rfl) h)
      | p0Frame => exact lift (cfg _ (by rfl) h)
      | p0Code => exact lift (cfg _ (by rfl) h)
      | p1Frame => exact lift (cfg _ (by rfl) h)
      | p1Code => exact lift (cfg _ (by rfl) h)
      | txlen =>
        simp only [writeTarget, writeTxlen, Host.Outcome.next.injEq] at h
        split at h
        · exact .inr (.inr (.inl h.symm))
        · rename_i hn
          exact .inr (.inr (.inr (.inr (.inr (.inl ⟨_, by omega, h.symm⟩)))))
      | pbufTx i =>
        simp only [writeTarget, Host.Outcome.next.injEq] at h
        exact .inr (.inr (.inr (.inr (.inr (.inr (.inl ⟨i, _, (targetOf_buffer.1 ht).1, h.symm⟩))))))
      | flen =>
        simp only [writeTarget, unlessBusy, writeFlen, Host.Outcome.next.injEq] at h
        cases busy with
        | true => exact .inr (.inr (.inl (by simpa using h.symm)))
        | false =>
          simp only [Bool.false_eq_true, if_false] at h
          split at h
          · exact .inr (.inr (.inl h.symm))
          · rename_i hn
            exact .inr (.inr (.inr (.inr (.inr (.inr (.inr (.inl ⟨rfl, _, by omega, h.symm⟩)))))))
      | fbuf i =>
        simp only [writeTarget, unlessBusy, Host.Outcome.next.injEq] at h
        cases busy with
        | true => exact .inr (.inr (.inl (by simpa using h.symm)))
        | false =>
          simp only [Bool.false_eq_true, if_false] at h
          exact .inr (.inr (.inr (.inr (.inr (.inr (.inr (.inr (.inl
            ⟨rfl, i, _, (targetOf_buffer.2.2 ht).1, h.symm⟩))))))))
      | _ => exact .inr (.inl (by simpa [writeTarget] using h.symm))
    · exact .inr (.inl (by simpa using h.symm))

/-- The CTRL actions on the lengths, in one update. -/
theorem ctrlLengths_eq (busy : Bool) (v : Word) (s : State) :
    ctrlLengths busy v s =
      { s with
        txlen := if v.getLsbD 3 then 0 else s.txlen, flen := if v.getLsbD 2 && !busy then 0 else s.flen
        wrRej := s.wrRej || (v.getLsbD 2 && busy) } := by
  unfold ctrlLengths
  cases busy <;> cases v.getLsbD 3 <;> cases v.getLsbD 2 <;> simp [refuseWrite]

/-- A cycle is a reset cycle, or the CTRL clears, the engine and the host's access one after another. -/
theorem clockCycle_cases {inp : Inputs} {s t : State} (h : clockCycle inp s = .next t) :
    (inp.rst = true ∧ t = resetCycle inp s)
      ∨ (inp.rst = false
        ∧ hostAccess s.busy inp.bus (engineCycle inp (ctrlClears inp.bus (begun inp s))) = .next t) := by
  unfold clockCycle at h
  split at h
  · rename_i hr; exact .inl ⟨hr, by simpa using h.symm⟩
  · rename_i hr; exact .inr ⟨by simpa using hr, h⟩

/-- The CTRL clears touch DONE, the sticky flags and SWIPE_DISC, and set none of them. -/
theorem ctrlClears_cases (bus : BusAccess) (s : State) :
    ∃ keepDone keepFlags : Bool, ctrlClears bus s =
      { s with
        done := s.done && keepDone, rxDrop := s.rxDrop && keepFlags, cmdRej := s.cmdRej && keepFlags
        busErr := s.busErr && keepFlags, wrRej := s.wrRej && keepFlags
        swipeDisc := if keepFlags then s.swipeDisc else 0 } := by
  unfold ctrlClears
  split
  · rename_i v _
    refine ⟨!v.getLsbD 0, !v.getLsbD 1, ?_⟩
    cases v.getLsbD 0 <;> cases v.getLsbD 1 <;> simp [acknowledge, clearSticky]
  · exact ⟨true, true, by simp⟩

/-- Without a CTRL write nothing is cleared. -/
theorem ctrlClears_of_not_ctrl (bus : BusAccess) (s : State) (h : ∀ v, bus ≠ .write 0x00C v) : ctrlClears bus s = s := by
  unfold ctrlClears ctrlWord
  cases bus with
  | idle => rfl
  | read addr => rfl
  | write addr v =>
    have : targetOf addr ≠ some .ctrl := fun e => h v (by rw [(targetOf_ctrl addr).mp e])
    simp [this]

/-- The number of a word put together of two fields. -/
theorem append_toNat {n m : Nat} (x : BitVec n) (y : BitVec m) : (x ++ y).toNat = x.toNat * 2 ^ m + y.toNat := by
  rw [BitVec.toNat_append, ← Nat.shiftLeft_add_eq_or_of_lt y.isLt, Nat.shiftLeft_eq]

end Sys2Proof.Laws
end

