-- ==== Sys2Proof/Laws/Issue.lean ====
section
/-! SUPPORT. The issue of a command: the checks in order, the frame that starts, the INVALID_ARGUMENT that ends it; and what a running
command's checks leave true. -/

namespace Sys2Proof.Laws

open Sys2Proof.Machine Sys2Proof.Safety

/-! ## The state a command ends in -/

/-- No terminal state is busy. -/
theorem terminalState_not_busy (cls : ResultClass) (c : Option Instr) :
    terminalState cls c ≠ .commandSent ∧ terminalState cls c ≠ .awaitingReply := by
  have h : ∀ k : ResultClass, classState k ≠ .commandSent ∧ classState k ≠ .awaitingReply := by
    intro k; cases k <;> simp [classState]
  unfold terminalState
  cases c with
  | none => exact h cls
  | some i =>
    dsimp only
    split
    · simp
    · exact h cls

/-- A finished command is not busy. -/
theorem finish_not_busy (c : Option Instr) (cls : ResultClass) (err : ErrCode) (value : Byte) (payload : Option (List Byte))
    (s : State) : (finish c cls err value payload s).busy = false := by
  rw [Bool.eq_false_iff]
  intro h
  rcases (busy_iff _).mp h with h | h
  · exact (terminalState_not_busy cls c).1 h
  · exact (terminalState_not_busy cls c).2 h

/-- A command that fails a check, or a reserved opcode, ends in IDLE. -/
theorem terminalState_invalid (c : Option Instr) : terminalState .invalidArgument c = .idle := by
  cases c with
  | none => rfl
  | some i => cases i <;> rfl

/-! ## The list of checks -/

theorem firstFailure_append_none {a b : List (Bool × ErrCode)} (h : firstFailure a = none) :
    firstFailure (a ++ b) = firstFailure b := by
  induction a with
  | nil => rfl
  | cons c rest ih =>
    obtain ⟨fails, code⟩ := c
    cases fails with
    | false => exact ih h
    | true => cases h

theorem firstFailure_append_some {a b : List (Bool × ErrCode)} {code : ErrCode} (h : firstFailure a = some code) :
    firstFailure (a ++ b) = some code := by
  induction a with
  | nil => cases h
  | cons c rest ih =>
    obtain ⟨fails, e⟩ := c
    cases fails with
    | false => exact ih h
    | true => exact h

/-- A frame passes its checks exactly when Encode answers one that is not empty. -/
theorem checkFrame_none (p : Profile) (payload : List Byte) :
    firstFailure (checkFrame p payload) = none ↔ ∃ frame, encodeFrame p payload = .ok frame ∧ frame ≠ [] := by
  simp only [checkFrame, firstFailure_none, List.mem_cons, List.not_mem_nil, or_false, forall_eq_or_imp, forall_eq]
  rw [collides_eq_false]
  constructor
  · rintro ⟨⟨frame, hf⟩, h⟩
    refine ⟨frame, hf, ?_⟩
    rintro rfl
    rw [emptyFrame_eq_true.mpr hf] at h
    cases h
  · rintro ⟨frame, hf, hn⟩
    exact ⟨⟨frame, hf⟩, by simp [emptyFrame, hf, hn]⟩

theorem checkFrame_collision {p : Profile} {payload : List Byte} (h : encodeFrame p payload = .error .termCollision) :
    firstFailure (checkFrame p payload) = some .termCollision := by
  simp [checkFrame, firstFailure, collides_eq_true.mpr h]

theorem checkFrame_empty {p : Profile} {payload : List Byte} (h : encodeFrame p payload = .ok []) :
    firstFailure (checkFrame p payload) = some .badArgument := by
  simp [checkFrame, firstFailure, collides_eq_false.mpr ⟨_, h⟩, emptyFrame_eq_true.mpr h]

/-- Encode answers a frame or TERM_COLLISION. -/
theorem encodeFrame_cases (p : Profile) (payload : List Byte) :
    (∃ frame, encodeFrame p payload = .ok frame) ∨ encodeFrame p payload = .error .termCollision := by
  cases h : encodeFrame p payload with
  | ok frame => exact .inl ⟨frame, rfl⟩
  | error code => rw [encodeFrame_error p payload code h]; exact .inr rfl

/-- The frame of a payload that is not empty is not empty. -/
theorem encodeFrame_ne_nil {p : Profile} {payload frame : List Byte} (h : encodeFrame p payload = .ok frame)
    (hp : payload ≠ []) : frame ≠ [] := by
  intro e
  have hl := congrArg List.length ((encodeFrame_ok h).1.symm.trans e)
  cases payload with
  | nil => exact hp rfl
  | cons b bs =>
    have hb := (stuffByte_length p b).1
    unfold stuff at hl
    split at hl <;>
      simp only [List.length_append, List.flatMap_cons, List.cons_append, List.length_cons, List.length_nil] at hl <;> omega

/-! ## Issuing -/

theorem issue_passes {i : Instr} {checks : List (Bool × ErrCode)} {start : State → State} {s : State}
    (h : firstFailure checks = none) : issue i checks start s = start (opened s) := by
  rcases issue_cases i checks start s with ⟨code, hc, -⟩ | ⟨-, e⟩
  · rw [h] at hc; cases hc
  · exact e

theorem issue_fails {i : Instr} {checks : List (Bool × ErrCode)} {start : State → State} {s : State} {code : ErrCode}
    (h : firstFailure checks = some code) :
    Finishes .invalidArgument code (commandFailValue i) .idle none (opened s) (issue i checks start s) := by
  rcases issue_cases i checks start s with ⟨code', hc, e⟩ | ⟨hc, -⟩
  · rw [h] at hc; cases hc
    rw [e]
    have := finish_none (some i) .invalidArgument code (commandFailValue i) (opened s)
    rwa [terminalState_invalid] at this
  · rw [h] at hc; cases hc

/-- Issuing a command keeps CMD. -/
theorem exec_cmd {i : Instr} {s t : State} (h : exec i s = .next t) : t.cmd = s.cmd := by
  have key : ∀ (checks : List (Bool × ErrCode)) (start : State → State), (start (opened s)).cmd = s.cmd →
      (issue i checks start s).cmd = s.cmd := by
    intro checks start hs
    rcases issue_cases i checks start s with ⟨code, -, e⟩ | ⟨-, e⟩ <;> rw [e]
    · rfl
    · exact hs
  cases i with
  | encode psel =>
    simp only [exec, execEncode, Host.Outcome.next.injEq] at h; subst h
    exact key _ _ (by unfold encodeToFbuf; split <;> rfl)
  | decode psel shape len =>
    simp only [exec, execDecode, Host.Outcome.next.injEq] at h; subst h
    exact key _ _ (by unfold decodeFromFbuf; split <;> rfl)
  | _ =>
    simp only [exec, execQueryInv, execHasSoda, execAwaitButton, execVend, execReaderEnable, execReaderDisable,
      execSetLed, execSetTracks, execAwaitSwipe, execExchange, execCksum, fireAndForget,
      Host.Outcome.next.injEq] at h
    subst h
    exact key _ _ rfl

/-! ## A running command -/

/-- What the checks left true depends on the configuration alone. -/
theorem ready_congr (i : Instr) {s t : State} (h0 : t.p0 = s.p0) (h1 : t.p1 = s.p1)
    (hr : t.replyTimeout = s.replyTimeout) (ha : t.slotAscii = s.slotAscii) : ready i t = ready i s := by
  cases i with
  | exchange psel shape len => cases psel <;> simp [ready, State.profile, h0, h1, hr]
  | _ => simp [ready, h0, h1, hr, vendPayload, slotByte, ha]

theorem ready_timeout {i : Instr} {s : State} (h : ready i s = true) : s.replyTimeout ≠ 0 := by
  cases i <;> simp [ready] at h ⊢ <;> simp [h]

end Sys2Proof.Laws
end

