-- ==== Sys2Proof/Laws/Cycle.lean ====
section
/-! SUPPORT. The host's addresses and the cycles with one event: what an address names, a cycle that brings a byte, a cycle with a write,
a cycle that only ticks or only transmits. -/

namespace Sys2Proof.Laws

open Sys2Proof.Machine Sys2Proof.Safety

/-! ## What an address names -/

theorem registerMap_range {k : Nat} {target : Target} (h : registerMap.lookup k = some target) :
    k % 4 = 0 ∧ k ≤ 0x04C ∧ k ≠ 0x03C := by
  have key : ∀ r ∈ registerMap, r.1 % 4 = 0 ∧ r.1 ≤ 0x04C ∧ r.1 ≠ 0x03C := by decide
  exact key _ (registerMap_mem h)

/-- A misaligned or unmapped address names nothing. -/
theorem targetOf_none {a : Half} (h : a.toNat % 4 ≠ 0 ∨ unmapped a) : targetOf a = none := by
  have pb := pmax_bounds
  have fd := fbufDepth_eq
  unfold targetOf
  by_cases h4 : a.toNat % 4 ≠ 0
  · rw [if_pos h4]
  · obtain ⟨-, h⟩ := h.resolve_left h4
    rw [if_neg h4]
    split
    · cases hl : registerMap.lookup a.toNat with
      | none => rfl
      | some target => have := registerMap_range hl; omega
    · unfold bufferSlot
      repeat' split
      all_goals first
        | rfl
        | (exfalso; omega)

theorem targetOf_pbufTx {a : Half} {i : Nat} (hi : i < Config.pmax) (h : a.toNat = 0x1000 + 4 * i) :
    targetOf a = some (.pbufTx i) := by
  have pb := pmax_bounds
  unfold targetOf bufferSlot
  rw [if_neg (by omega), if_neg (by omega), if_pos (by omega), show (a.toNat - 0x1000) / 4 = i by omega, if_pos hi]

theorem targetOf_pbufRx {a : Half} {i : Nat} (hi : i < Config.pmax) (h : a.toNat = 0x2000 + 4 * i) :
    targetOf a = some (.pbufRx i) := by
  have pb := pmax_bounds
  unfold targetOf bufferSlot
  rw [if_neg (by omega), if_neg (by omega), if_neg (by omega), if_pos (by omega),
    show (a.toNat - 0x2000) / 4 = i by omega, if_pos hi]

theorem targetOf_fbuf {a : Half} {i : Nat} (hi : i < Config.fbufDepth) (h : a.toNat = 0x3000 + 4 * i) :
    targetOf a = some (.fbuf i) := by
  have pb := pmax_bounds
  have fd := fbufDepth_eq
  unfold targetOf bufferSlot
  rw [if_neg (by omega), if_neg (by omega), if_neg (by omega), if_neg (by omega), if_pos (by omega),
    show (a.toNat - 0x3000) / 4 = i by omega, if_pos hi]

theorem busRead_of {s : State} {a : Half} {target : Target} (h : targetOf a = some target) :
    busRead s a = readTarget s target := by simp only [busRead, h]

/-! ## Parts of a cycle -/

theorem dropRx_xstate (rx : Option Byte) (s : State) : (dropRx rx s).xstate = s.xstate := by
  unfold dropRx; split <;> rfl

theorem dropRx_busy (rx : Option Byte) (s : State) : (dropRx rx s).busy = s.busy := by
  unfold State.busy; rw [dropRx_xstate]

/-- A cycle's engine part that ran no transition kept STATE. -/
theorem enginePart_flag {inp : Inputs} {s : State} (h : (enginePart inp s).2 = false) :
    (enginePart inp s).1.xstate = s.xstate := by
  unfold enginePart at h ⊢
  cases hx : s.xstate <;> simp only [hx] at h ⊢
  case commandSent =>
    rw [dropRx_xstate]
    rcases txPart_cases inp s with ⟨-, e⟩ | ⟨-, -, -, e⟩ | ⟨-, -, -, e⟩ | ⟨-, -, e⟩ <;> rw [e] at h ⊢ <;>
      simp at h <;> exact hx
  case awaitingReply =>
    cases hr : inp.rx with
    | none => exact hx
    | some b =>
      rw [hr] at h
      dsimp only at h ⊢
      unfold rxByte at h ⊢
      cases hw : waitMode s.command <;> rw [hw] at h <;> dsimp only at h ⊢
      · rcases replyByte_cases b s with ⟨payload, -, e⟩ | ⟨code, e, -⟩ | ⟨-, e⟩ <;> rw [e] at h ⊢ <;> simp at h
        exact hx
      · exact hx
      · rcases swipeByte_cases b s with ⟨card, -, e⟩ | e | ⟨-, e⟩ <;> rw [e] at h ⊢ <;> simp at h <;> exact hx
  all_goals rw [dropRx_xstate, hx]

/-- A cycle that brings a byte to a machine awaiting a reply. -/
theorem clockCycle_byte {inp : Inputs} {b : Byte} {s : State} (h : bringsByte inp b s) :
    clockCycle inp s = .next (if inp.tick && !(rxByte b (begun inp s)).2 then countTick (rxByte b (begun inp s)).1
      else (rxByte b (begun inp s)).1) := by
  obtain ⟨h1, h2, h3, h4⟩ := h
  have hp : enginePart inp (advance inp s) = rxByte b (begun inp s) := by
    unfold enginePart
    rw [show (advance inp s).xstate = .awaitingReply from h4]
    dsimp only
    rw [h3]
    rfl
  have hb : (advance inp s).busy = true := (busy_iff _).mpr (.inr h4)
  unfold clockCycle
  rw [h1, h2]
  simp only [Bool.false_eq_true, if_false]
  rw [ctrlClears_of_not_ctrl _ _ (by intro v e; cases e)]
  simp only [hostAccess, engineCycle, hp, hb, Bool.true_and]

/-- A cycle without host access or received byte, of a machine that sends. -/
theorem clockCycle_send {inp : Inputs} {s : State} (hr : inp.rst = false) (hb : inp.bus = .idle) (hx : inp.rx = none)
    (hs : s.xstate = .commandSent) :
    clockCycle inp s = .next (if inp.tick && !(txPart inp (begun inp s)).2 then countTick (txPart inp (begun inp s)).1
      else (txPart inp (begun inp s)).1) := by
  have hp : enginePart inp (advance inp s) = txPart inp (begun inp s) := by
    unfold enginePart
    rw [show (advance inp s).xstate = .commandSent from hs, hx]
    rfl
  have hbusy : (advance inp s).busy = true := (busy_iff _).mpr (.inl hs)
  unfold clockCycle
  rw [hr, hb]
  simp only [Bool.false_eq_true, if_false]
  rw [ctrlClears_of_not_ctrl _ _ (by intro v e; cases e)]
  simp only [hostAccess, engineCycle, hp, hbusy, Bool.true_and]

/-- What counting a cycle's tick does to a busy machine. -/
theorem tickCounted {i : Instr} {s : State} (tick : Bool) (hb : s.busy = true) (hc : s.command = some i)
    (hi : isCodec i = false) : TickCounted tick i s (if tick then countTick s else s) := by
  have ts : ∀ cls, terminalState cls (some i) = classState cls := fun cls => by simp [terminalState, hi]
  cases tick with
  | false => rfl
  | true =>
    unfold TickCounted
    simp only [Bool.true_eq_false, if_false, if_true]
    rcases countTick_cases s with ⟨h, e⟩ | ⟨h, e⟩
    · rw [if_pos (by simpa [BitVec.lt_def] using h), e]
    · rw [if_neg (by simpa [BitVec.lt_def] using h), e]
      have hc0 : ({ s with dlCnt := 0 } : State).command = some i := hc
      rcases expire_cases { s with dlCnt := 0 } with ⟨hn, -⟩ | ⟨hx, e⟩ | ⟨hx, hw, e⟩ | ⟨hx, hw, e⟩
      · exact absurd hb (by rw [show s.busy = false from hn]; simp)
      all_goals
        have hx : s.xstate = _ := hx
        rw [hc0] at e
        rw [e]
        split <;> rename_i h' <;> rw [hx] at h' <;> try cases h'
      · have := finish_none (some i) .ioFailure .shortWrite (commandFailValue i) { s with dlCnt := 0 }
        rwa [ts] at this
      · rw [hc0] at hw
        rw [if_pos (by exact hw)]
        have := finish_none (some i) .ok .noError 0 { s with dlCnt := 0 }
        rwa [ts] at this
      · rw [hc0] at hw
        rw [if_neg (by exact hw)]
        have := finish_none (some i) .timedOut .noError (commandFailValue i) { s with dlCnt := 0 }
        rwa [ts] at this

/-- A cycle with a write, but not to CTRL, is the cycle without it and then the write. -/
theorem clockCycle_write {inp : Inputs} {s t u : State} {a : Half} {v : Word} (hr : inp.rst = false) (ha : a ≠ 0x00C)
    (h1 : clockCycle { inp with bus := .write a v } s = .next t) (h2 : clockCycle { inp with bus := .idle } s = .next u) :
    hostAccess s.busy (.write a v) u = .next t := by
  rcases clockCycle_cases h1 with ⟨h, -⟩ | ⟨-, e1⟩
  · exact absurd (h.symm.trans hr) (by simp)
  rcases clockCycle_cases h2 with ⟨h, -⟩ | ⟨-, e2⟩
  · exact absurd (h.symm.trans hr) (by simp)
  rw [ctrlClears_of_not_ctrl _ _ (by intro w e; cases e; exact ha rfl)] at e1
  rw [ctrlClears_of_not_ctrl _ _ (by intro w e; cases e)] at e2
  simp only [hostAccess, Host.Outcome.next.injEq] at e2
  subst e2
  exact e1

/-- A cycle that brings neither byte nor access to a machine that awaits a reply: it counts its tick, and nothing else of its inputs
matters (41_exchange.md R160, R178). -/
theorem clockCycle_await {inp : Inputs} {s : State} (hr : inp.rst = false) (hb : inp.bus = .idle) (hx : inp.rx = none)
    (hs : s.xstate = .awaitingReply) :
    clockCycle inp s = .next (if inp.tick then countTick (begun inp s) else begun inp s) := by
  have bz : (advance inp s).busy = true := (busy_iff _).mpr (.inr hs)
  have e : enginePart inp (advance inp s) = (begun inp s, false) := by
    unfold enginePart
    rw [show (advance inp s).xstate = .awaitingReply from hs, hx]
    rfl
  unfold clockCycle engineCycle
  rw [hr, hb]
  simp only [Bool.false_eq_true, if_false, ctrlClears_of_not_ctrl .idle _ (by intro v e; cases e), hostAccess, e, bz]
  simp

end Sys2Proof.Laws
end

