-- ==== Sys2Proof/Laws/Flags.lean ====
section
/-! SUPPORT. What a cycle does to DONE, the sticky flags and SWIPE_DISC: the engine reads none of them, sets DONE by a finish and RX_DROP by a
dropped byte, and counts SWIPE_DISC up by a discard; a CTRL write, against the cycle without it; and the addresses whose writes set
BUS_ERR or WR_REJ, as targets. -/

namespace Sys2Proof.Laws

open Sys2Proof.Machine Sys2Proof.Safety

/-! ## The engine -/

/-- DONE, the four sticky flags and SWIPE_DISC at given values, everything else of s. -/
def withFlags (d r c b w : Bool) (n : Half) (s : State) : State :=
  { s with done := d, rxDrop := r, cmdRej := c, busErr := b, wrRej := w, swipeDisc := n }

theorem interpret_flags (cmd : Option Instr) (payload : List Byte) (s : State) :
    ∃ fin, ∀ d r c b w n, interpret cmd payload (withFlags d r c b w n s) = withFlags (d || fin) r c b w n (interpret cmd payload s) := by
  cases cmd with
  | none => exact ⟨true, fun d r c b w n => by cases d <;> rfl⟩
  | some i =>
    cases i with
    | queryInv => refine ⟨true, fun d r c b w n => ?_⟩; simp only [interpret, replyQueryInv]; split <;> cases d <;> rfl
    | hasSoda slot => refine ⟨true, fun d r c b w n => ?_⟩; simp only [interpret, replyHasSoda]; split <;> cases d <;> rfl
    | vend slot =>
      simp only [interpret, replyVendConfirm, replyVendInventory, show ∀ d r c b w n, (withFlags d r c b w n s).phase = s.phase from
        fun _ _ _ _ _ _ => rfl]
      split
      · refine ⟨true, fun d r c b w n => ?_⟩; split <;> cases d <;> rfl
      · split
        · split
          · exact ⟨false, fun d r c b w n => by cases d <;> rfl⟩
          · exact ⟨true, fun d r c b w n => by cases d <;> rfl⟩
        · exact ⟨true, fun d r c b w n => by cases d <;> rfl⟩
    | _ => exact ⟨true, fun d r c b w n => by cases d <;> rfl⟩

theorem replyByte_flags (x : Byte) (s : State) :
    ∃ fin, ∀ d r c b w n, replyByte x (withFlags d r c b w n s)
      = (withFlags (d || fin) r c b w n (replyByte x s).1, (replyByte x s).2) := by
  have e : ∀ d r c b w n, exchangeParams s.command s.phase (withFlags d r c b w n s) = exchangeParams s.command s.phase s :=
    fun _ _ _ _ _ _ => rfl
  unfold replyByte
  dsimp only
  simp only [show ∀ d r c b w n, (withFlags d r c b w n s).command = s.command from fun _ _ _ _ _ _ => rfl,
    show ∀ d r c b w n, (withFlags d r c b w n s).phase = s.phase from fun _ _ _ _ _ _ => rfl,
    show ∀ d r c b w n, (withFlags d r c b w n s).frameBytes = s.frameBytes from fun _ _ _ _ _ _ => rfl,
    show ∀ d r c b w n, appendByte x (withFlags d r c b w n s) = withFlags d r c b w n (appendByte x s) from fun _ _ _ _ _ _ => rfl, e]
  split
  · split
    · rename_i payload _
      obtain ⟨fin, h⟩ := interpret_flags s.command payload (appendByte x s)
      exact ⟨fin, fun d r c b w n => by rw [h]⟩
    · exact ⟨true, fun d r c b w n => by cases d <;> rfl⟩
  · split
    · exact ⟨true, fun d r c b w n => by cases d <;> rfl⟩
    · exact ⟨false, fun d r c b w n => by cases d <;> rfl⟩

theorem swipeByte_flags (x : Byte) (s : State) :
    ∃ fin, ∀ d r c b w n, swipeByte x (withFlags d r c b w n s)
      = (withFlags (d || fin) r c b w (if endsNoCard x s then countDiscard n else n) (swipeByte x s).1, (swipeByte x s).2) := by
  have fin : ∀ card : List Byte, ∃ fin, ∀ d r c b w n,
      endSwipe s.command card (withFlags d r c b w n (appendByte x s))
        = (withFlags (d || fin) r c b w (if !cardOk card then countDiscard n else n) (endSwipe s.command card (appendByte x s)).1,
          (endSwipe s.command card (appendByte x s)).2) := by
    intro card
    unfold endSwipe
    cases cardOk card
    · exact ⟨false, fun d r c b w n => by cases d <;> rfl⟩
    · exact ⟨true, fun d r c b w n => by cases d <;> rfl⟩
  unfold swipeByte endsNoCard
  dsimp only
  simp only [show ∀ d r c b w n, (withFlags d r c b w n s).command = s.command from fun _ _ _ _ _ _ => rfl,
    show ∀ d r c b w n, (withFlags d r c b w n s).p1 = s.p1 from fun _ _ _ _ _ _ => rfl,
    show ∀ d r c b w n, (withFlags d r c b w n s).frameBytes = s.frameBytes from fun _ _ _ _ _ _ => rfl,
    show ∀ d r c b w n, (withFlags d r c b w n s).swipeFramed = s.swipeFramed from fun _ _ _ _ _ _ => rfl,
    show ∀ d r c b w n, appendByte x (withFlags d r c b w n s) = withFlags d r c b w n (appendByte x s) from fun _ _ _ _ _ _ => rfl,
    List.length_append, List.length_singleton, frameBytes_length]
  have full : ∃ fin, ∀ d r c b w n,
      (if s.flen.toNat + 1 = Config.fbufDepth then (discardSwipe (withFlags d r c b w n (appendByte x s)), false)
        else (withFlags d r c b w n (appendByte x s), false))
        = (withFlags (d || fin) r c b w (if decide (s.flen.toNat + 1 = Config.fbufDepth) then countDiscard n else n)
            (if s.flen.toNat + 1 = Config.fbufDepth then (discardSwipe (appendByte x s), false) else (appendByte x s, false)).1,
          (if s.flen.toNat + 1 = Config.fbufDepth then (discardSwipe (appendByte x s), false) else (appendByte x s, false)).2) := by
    refine ⟨false, fun d r c b w n => ?_⟩
    by_cases h : s.flen.toNat + 1 = Config.fbufDepth <;> simp only [h, if_true, if_false, decide_true, decide_false] <;>
      cases d <;> rfl
  by_cases h1 : s.swipeFramed = true
  · simp only [if_pos h1]
    by_cases h2 : frameComplete s.p1 .sentinel 0 (s.frameBytes ++ [x]) = true
    · simp only [if_pos h2]
      cases decodeFrame s.p1 .sentinel 0 (s.frameBytes ++ [x]) with
      | ok card => exact fin card
      | error code => exact ⟨false, fun d r c b w n => by cases d <;> rfl⟩
    · simp only [if_neg h2]; exact full
  · simp only [if_neg h1]
    by_cases h2 : x = s.p1.term
    · simp only [if_pos h2]; exact fin _
    · simp only [if_neg h2]; exact full

theorem txComplete_flags (s : State) :
    ∃ fin, ∀ d r c b w n, txComplete (withFlags d r c b w n s) = withFlags (d || fin) r c b w n (txComplete s) := by
  have e : ∀ d r c b w n, exchangeParams s.command s.phase { withFlags d r c b w n s with flen := 0 }
      = exchangeParams s.command s.phase { s with flen := 0 } := fun _ _ _ _ _ _ => rfl
  unfold txComplete
  simp only [show ∀ d r c b w n, (withFlags d r c b w n s).settle = s.settle from fun _ _ _ _ _ _ => rfl,
    show ∀ d r c b w n, (withFlags d r c b w n s).command = s.command from fun _ _ _ _ _ _ => rfl]
  by_cases h : waitMode s.command = .settle ∧ s.settle = 0
  · simp only [if_pos h]; exact ⟨true, fun d r c b w n => by cases d <;> rfl⟩
  · simp only [if_neg h]; exact ⟨false, fun d r c b w n => by cases d <;> rfl⟩

theorem txPart_flags (inp : Inputs) (s : State) :
    ∃ fin, ∀ d r c b w n, txPart inp (withFlags d r c b w n s)
      = (withFlags (d || fin) r c b w n (txPart inp s).1, (txPart inp s).2) := by
  unfold txPart txHandoff
  dsimp only
  simp only [show ∀ d r c b w n, (withFlags d r c b w n s).txIdx = s.txIdx from fun _ _ _ _ _ _ => rfl,
    show ∀ d r c b w n, (withFlags d r c b w n s).flen = s.flen from fun _ _ _ _ _ _ => rfl]
  by_cases h1 : inp.txErr = true
  · simp only [if_pos h1]; exact ⟨true, fun d r c b w n => by cases d <;> rfl⟩
  simp only [if_neg h1]
  by_cases h2 : inp.txReady = true
  · simp only [if_pos h2]
    by_cases h3 : s.txIdx + 1 = s.flen
    · simp only [if_pos h3]
      obtain ⟨fin, h⟩ := txComplete_flags { s with txIdx := s.txIdx + 1 }
      exact ⟨fin, fun d r c b w n => Prod.ext (h d r c b w n) rfl⟩
    · simp only [if_neg h3]; exact ⟨false, fun d r c b w n => by cases d <;> rfl⟩
  · simp only [if_neg h2]; exact ⟨false, fun d r c b w n => by cases d <;> rfl⟩

theorem dropRx_flags (rx : Option Byte) (d r c b w : Bool) (n : Half) (s : State) :
    dropRx rx (withFlags d r c b w n s) = withFlags d (r || rx.isSome) c b w n (dropRx rx s) := by
  cases rx <;> cases r <;> rfl

theorem enginePart_flags (inp : Inputs) (s : State) :
    ∃ fin, ∀ d r c b w n, enginePart inp (withFlags d r c b w n s)
      = (withFlags (d || fin) (r || byteDropped inp s) c b w (if swipeDiscarded inp s then countDiscard n else n)
          (enginePart inp s).1, (enginePart inp s).2) := by
  unfold enginePart byteDropped swipeDiscarded
  simp only [show ∀ d r c b w n, (withFlags d r c b w n s).xstate = s.xstate from fun _ _ _ _ _ _ => rfl]
  cases hx : s.xstate <;> dsimp only
  case awaitingReply =>
    cases inp.rx with
    | none => exact ⟨false, fun d r c b w n => by cases d <;> cases r <;> rfl⟩
    | some x =>
      simp only [rxByte, show ∀ d r c b w n, (withFlags d r c b w n s).command = s.command from fun _ _ _ _ _ _ => rfl]
      have other : waitMode s.command ≠ .swipe → (s.command == some Instr.awaitSwipe) = false := by
        intro h; rw [beq_eq_false_iff_ne]; intro e; rw [e] at h; exact h rfl
      cases hw : waitMode s.command with
      | reply =>
        obtain ⟨fin, h⟩ := replyByte_flags x s
        exact ⟨fin, fun d r c b w n => by simp [h, other (by simp [hw]), show (WaitMode.reply == .settle) = false from rfl]⟩
      | settle =>
        exact ⟨false, fun d r c b w n => by
          simp [other (by simp [hw]), dropByte, withFlags]⟩
      | swipe =>
        have hc : (s.command == some Instr.awaitSwipe) = true := by
          cases h : s.command with
          | none => rw [h] at hw; cases hw
          | some i =>
            rw [h] at hw
            cases i with
            | awaitSwipe => rfl
            | exchange p sh l => cases sh <;> cases hw
            | _ => cases hw
        obtain ⟨fin, h⟩ := swipeByte_flags x s
        exact ⟨fin, fun d r c b w n => by simp [h, hc, show (WaitMode.swipe == .settle) = false from rfl]⟩
  case commandSent =>
    obtain ⟨fin, h⟩ := txPart_flags inp s
    refine ⟨fin, fun d r c b w n => ?_⟩
    rw [h]; dsimp only; rw [dropRx_flags]
    cases inp.rx <;> cases r <;> rfl
  all_goals
    refine ⟨false, fun d r c b w n => ?_⟩
    rw [dropRx_flags]
    cases inp.rx <;> cases d <;> cases r <;> rfl

theorem countTick_flags (s : State) :
    ∃ fin, ∀ d r c b w n, countTick (withFlags d r c b w n s) = withFlags (d || fin) r c b w n (countTick s) := by
  unfold countTick
  simp only [show ∀ d r c b w n, (withFlags d r c b w n s).dlCnt = s.dlCnt from fun _ _ _ _ _ _ => rfl]
  by_cases h : 1 < s.dlCnt
  · simp only [if_pos h]; exact ⟨false, fun d r c b w n => by cases d <;> rfl⟩
  simp only [if_neg h]
  unfold expire
  simp only [show ∀ d r c b w n, ({ withFlags d r c b w n s with dlCnt := 0 } : State).command = s.command from
      fun _ _ _ _ _ _ => rfl, show ({ s with dlCnt := 0 } : State).command = s.command from rfl]
  simp only [show ∀ d r c b w n, (withFlags d r c b w n s).xstate = s.xstate from fun _ _ _ _ _ _ => rfl]
  cases s.xstate <;> dsimp only
  case commandSent => exact ⟨true, fun d r c b w n => by cases d <;> rfl⟩
  case awaitingReply =>
    cases waitMode s.command <;> exact ⟨true, fun d r c b w n => by cases d <;> rfl⟩
  all_goals exact ⟨false, fun d r c b w n => by cases d <;> rfl⟩

/-- What the engine's part of a cycle does to DONE, the sticky flags and SWIPE_DISC, whatever they hold: a finish sets DONE, a dropped byte
sets RX_DROP, a discarded buffer counts SWIPE_DISC up; and they have no effect on anything else. -/
theorem engineCycle_flags (inp : Inputs) (s : State) :
    ∃ fin, ∀ d r c b w n, engineCycle inp (withFlags d r c b w n s)
      = withFlags (d || fin) (r || byteDropped inp s) c b w (if swipeDiscarded inp s then countDiscard n else n)
          (engineCycle inp s) := by
  obtain ⟨f1, h1⟩ := enginePart_flags inp s
  obtain ⟨f2, h2⟩ := countTick_flags (enginePart inp s).1
  unfold engineCycle
  simp only [h1, show ∀ d r c b w n, (withFlags d r c b w n s).busy = s.busy from fun _ _ _ _ _ _ => rfl]
  by_cases h : (s.busy && inp.tick && !(enginePart inp s).2) = true
  · simp only [if_pos h, h2]
    exact ⟨f1 || f2, fun d r c b w n => by rw [Bool.or_assoc]⟩
  · simp only [if_neg h]; exact ⟨f1, fun _ _ _ _ _ _ => rfl⟩

/-- The flags after the engine's part of a cycle. -/
theorem engineCycle_flag_values (inp : Inputs) (s : State) :
    (engineCycle inp s).rxDrop = (s.rxDrop || byteDropped inp s) ∧ (engineCycle inp s).cmdRej = s.cmdRej
      ∧ (engineCycle inp s).busErr = s.busErr ∧ (engineCycle inp s).wrRej = s.wrRej
      ∧ (engineCycle inp s).swipeDisc = if swipeDiscarded inp s then countDiscard s.swipeDisc else s.swipeDisc := by
  obtain ⟨fin, h⟩ := engineCycle_flags inp s
  have h := h s.done s.rxDrop s.cmdRej s.busErr s.wrRej s.swipeDisc
  rw [show withFlags s.done s.rxDrop s.cmdRej s.busErr s.wrRej s.swipeDisc s = s from rfl] at h
  rw [h]; exact ⟨rfl, rfl, rfl, rfl, rfl⟩

/-! ## The CTRL clears -/

/-- A CTRL write clears DONE by its bit 0, and the sticky flags and SWIPE_DISC by its bit 1. -/
theorem ctrlClears_ctrl (v : Word) (s : State) :
    ctrlClears (.write 0x00C v) s =
      withFlags (s.done && !v.getLsbD 0) (s.rxDrop && !v.getLsbD 1) (s.cmdRej && !v.getLsbD 1) (s.busErr && !v.getLsbD 1)
        (s.wrRej && !v.getLsbD 1) (if v.getLsbD 1 then 0 else s.swipeDisc) s := by
  simp only [ctrlClears, ctrlWord, show targetOf 0x00C = some .ctrl from rfl, if_true]
  generalize v.getLsbD 0 = p
  generalize v.getLsbD 1 = q
  cases p <;> cases q <;> simp [acknowledge, clearSticky, withFlags]

/-- In every cycle the sticky flags and SWIPE_DISC are cleared exactly when the access is a CTRL write with FLAGCLR. -/
theorem ctrlClears_flags (bus : BusAccess) (s : State) :
    ∃ d, ctrlClears bus s =
      withFlags d (s.rxDrop && !flagsCleared bus) (s.cmdRej && !flagsCleared bus) (s.busErr && !flagsCleared bus)
        (s.wrRej && !flagsCleared bus) (if flagsCleared bus then 0 else s.swipeDisc) s := by
  have keep : flagsCleared bus = false → (∀ v, bus ≠ .write 0x00C v) → ∃ d, ctrlClears bus s =
      withFlags d (s.rxDrop && !flagsCleared bus) (s.cmdRej && !flagsCleared bus) (s.busErr && !flagsCleared bus)
        (s.wrRej && !flagsCleared bus) (if flagsCleared bus then 0 else s.swipeDisc) s := by
    intro h hb
    exact ⟨s.done, by rw [ctrlClears_of_not_ctrl bus s hb, h]; simp [withFlags]⟩
  cases bus with
  | idle => exact keep rfl (fun v h => by cases h)
  | read a => exact keep rfl (fun v h => by cases h)
  | write a v =>
    by_cases h : a = 0x00C
    · subst h; exact ⟨_, ctrlClears_ctrl v s⟩
    · exact keep (by simp [flagsCleared]; exact fun e => absurd e h) (fun w e => by cases e; exact h rfl)

/-! ## The host access -/

/-- No command reads or writes a sticky flag or SWIPE_DISC when it is issued. -/
theorem exec_flags {i : Instr} {s t : State} (h : exec i s = .next t) :
    t.rxDrop = s.rxDrop ∧ t.cmdRej = s.cmdRej ∧ t.busErr = s.busErr ∧ t.wrRej = s.wrRej ∧ t.swipeDisc = s.swipeDisc := by
  have iss : ∀ (i : Instr) (checks : List (Bool × ErrCode)) (start : State → State) (s : State),
      (∀ x : State, (start x).rxDrop = x.rxDrop ∧ (start x).cmdRej = x.cmdRej ∧ (start x).busErr = x.busErr
        ∧ (start x).wrRej = x.wrRej ∧ (start x).swipeDisc = x.swipeDisc) →
      (issue i checks start s).rxDrop = s.rxDrop ∧ (issue i checks start s).cmdRej = s.cmdRej
        ∧ (issue i checks start s).busErr = s.busErr ∧ (issue i checks start s).wrRej = s.wrRej
        ∧ (issue i checks start s).swipeDisc = s.swipeDisc := by
    intro i checks start s hst
    rcases issue_cases i checks start s with ⟨code, -, e⟩ | ⟨-, e⟩ <;> rw [e]
    · exact ⟨rfl, rfl, rfl, rfl, rfl⟩
    · exact hst (opened s)
  cases i <;> (cases h; apply iss; intro x)
  case encode => unfold encodeToFbuf; split <;> exact ⟨rfl, rfl, rfl, rfl, rfl⟩
  case decode => unfold decodeFromFbuf; split <;> exact ⟨rfl, rfl, rfl, rfl, rfl⟩
  all_goals exact ⟨rfl, rfl, rfl, rfl, rfl⟩

/-- The slots of a buffer window are its aligned addresses. -/
theorem window_slot (n base depth : Nat) (h : base % 4 = 0) :
    (∃ i : Nat, i < depth ∧ n = base + 4 * i) ↔ base ≤ n ∧ n < base + 4 * depth ∧ n % 4 = 0 := by
  constructor
  · rintro ⟨i, hi, rfl⟩; omega
  · rintro ⟨h1, h2, h3⟩; exact ⟨(n - base) / 4, by omega, by omega⟩

/-- A target no write reaches. -/
def targetReadOnly : Option Target → Bool
  | none => true
  | some .id => true
  | some .caps => true
  | some .status => true
  | some .result => true
  | some .rxlen => true
  | some .dlRem => true
  | some .txIdx => true
  | some .swipeDisc => true
  | some (.pbufRx _) => true
  | _ => false

/-- A target that a running exchange reads. -/
def targetLocked : Option Target → Bool
  | some .cfg => true
  | some .replyTimeout => true
  | some .settle => true
  | some .flen => true
  | some .p0Frame => true
  | some .p0Code => true
  | some .p1Frame => true
  | some .p1Code => true
  | some (.fbuf _) => true
  | _ => false

/-- The bad and the locked addresses of 20_memory.md R75 to R77, as targets. -/
theorem address_class (a : Half) :
    (badWrite a ↔ targetReadOnly (targetOf a) = true) ∧ (lockedWhileBusy a ↔ targetLocked (targetOf a) = true) := by
  have pb := pmax_bounds
  have fd := fbufDepth_eq
  have ha := a.isLt
  unfold badWrite unmapped readOnly lockedWhileBusy targetOf bufferSlot
  rw [window_slot _ _ _ (by decide), window_slot _ _ _ (by decide)]
  simp only [List.mem_cons, List.not_mem_nil, or_false]
  generalize a.toNat = n at *
  by_cases h4 : n % 4 ≠ 0
  · rw [if_pos h4]; constructor <;> simp [targetReadOnly, targetLocked] <;> omega
  rw [if_neg h4]
  by_cases h1 : n < 0x1000
  · rw [if_pos h1]
    by_cases h2 : n < 0x50
    · obtain ⟨k, rfl⟩ : ∃ k, n = 4 * k := ⟨n / 4, by omega⟩
      have : k < 20 := by omega
      interval_cases k <;> simp [registerMap, List.lookup, targetReadOnly, targetLocked] <;> omega
    · cases hl : registerMap.lookup n with
      | some target => have := registerMap_range hl; omega
      | none => constructor <;> simp [targetReadOnly, targetLocked] <;> omega
  rw [if_neg h1]
  repeat' split
  all_goals (constructor <;> simp [targetReadOnly, targetLocked] <;> omega)

end Sys2Proof.Laws
end

