-- ==== Sys2Proof/Laws/PerInstr.lean ====
section
/-! SUPPORT. One statement for every command: the assembled word's OP is the command's opcode (30_encoding.md R90, R91, R106). -/

namespace Sys2Proof.Laws

/-- The low byte of an assembled word is its OP. -/
theorem assemble_op (op arg : Byte) (psel : BitVec 1) (shape : BitVec 2) (len : Byte) :
    Field.op (assemble op arg psel shape len) = op := by
  apply BitVec.eq_of_getLsbD_eq
  intro i hi
  unfold Field.op assemble
  rw [BitVec.getLsbD_extractLsb']
  have h := BitVec.getLsbD_append (x := len ++ 0#5 ++ shape ++ psel ++ arg) (y := op) (i := 0 + i)
  simp [hi] at h ⊢
  exact h

namespace OpcodeField

/-- The word that a command assembles to carries the command's opcode in its OP field. -/
def Statement (i : Instr) : Prop := Field.op (encode i) = i.opcode

theorem queryInv : Statement .queryInv := assemble_op _ _ _ _ _
theorem hasSoda (slot : Byte) : Statement (.hasSoda slot) := assemble_op _ _ _ _ _
theorem awaitButton (secs : Byte) : Statement (.awaitButton secs) := assemble_op _ _ _ _ _
theorem vend (slot : Byte) : Statement (.vend slot) := assemble_op _ _ _ _ _
theorem readerEnable (arg : Byte) : Statement (.readerEnable arg) := assemble_op _ _ _ _ _
theorem readerDisable (arg : Byte) : Statement (.readerDisable arg) := assemble_op _ _ _ _ _
theorem setLed (colour : Byte) : Statement (.setLed colour) := assemble_op _ _ _ _ _
theorem setTracks (sel : Byte) : Statement (.setTracks sel) := assemble_op _ _ _ _ _
theorem awaitSwipe : Statement .awaitSwipe := assemble_op _ _ _ _ _
theorem exchange (psel : ProfileSel) (shape : Shape) (len : Byte) : Statement (.exchange psel shape len) :=
  assemble_op _ _ _ _ _
theorem encode (psel : ProfileSel) : Statement (.encode psel) := assemble_op _ _ _ _ _
theorem decode (psel : ProfileSel) (shape : Shape) (len : Byte) : Statement (.decode psel shape len) :=
  assemble_op _ _ _ _ _
theorem cksum (psel : ProfileSel) : Statement (.cksum psel) := assemble_op _ _ _ _ _

end OpcodeField

end Sys2Proof.Laws
end

