-- ==== Sys2Proof/Laws/Receive.lean ====
section
/-! SUPPORT. What a received byte does to a machine that awaits a reply, and how the cycle that brings it ends. -/

namespace Sys2Proof.Laws

open Sys2Proof.Machine Sys2Proof.Safety

/-- A payload the decoder accepts has a length RXLEN can hold. -/
theorem decodeFrame_length {p : Profile} {shape : Shape} {n : Nat} {bytes payload : List Byte}
    (h : decodeFrame p shape n bytes = .ok payload) : payload.length < 65536 := by
  have := (decodeFrame_ok h).1
  have := pmax_bounds
  omega

theorem received_busy {inp : Inputs} {b : Byte} {s : State} (h : bringsByte inp b s) : (received inp b s).busy = true :=
  (busy_iff _).mpr (.inr h.2.2.2)

/-- A cycle that brings a byte ends as the byte leaves it, or with its tick counted where no transition ran (41_exchange.md R160). -/
theorem clockCycle_received {inp : Inputs} {b : Byte} {s t : State} {fired : Bool} (h : bringsByte inp b s)
    (e : rxByte b (begun inp s) = (t, fired)) :
    clockCycle inp s = .next (if fired then t else if inp.tick then countTick t else t) := by
  rw [clockCycle_byte h, e]
  cases fired <;> cases inp.tick <;> rfl

/-- A byte of a reply (41_exchange.md R179). -/
theorem rxByte_reply {inp : Inputs} {b : Byte} {s : State} {i : Instr} (hc : s.command = some i)
    (hw : commandWaitMode i = .reply) :
    rxByte b (begun inp s) =
      let x := commandParams i s.phase s
      if frameComplete x.profile x.shape x.n (s.frameBytes ++ [b]) then
        match decodeFrame x.profile x.shape x.n (s.frameBytes ++ [b]) with
        | .ok payload => (interpret (some i) payload (received inp b s), true)
        | .error code => (finish (some i) .malformed code (commandFailValue i) none (received inp b s), true)
      else if s.flen.toNat + 1 = Config.fbufDepth then
        (finish (some i) .malformed (budgetError x.profile) (commandFailValue i) none (received inp b s), true)
      else (received inp b s, false) := by
  have e : exchangeParams (some i) (begun inp s).phase (begun inp s) = commandParams i s.phase s := by cases i <;> rfl
  unfold rxByte
  rw [show (begun inp s).command = some i from hc]
  simp only [waitMode, hw]
  unfold replyByte
  rw [show (begun inp s).command = some i from hc]
  dsimp only
  rw [e, show (begun inp s).frameBytes = s.frameBytes from rfl]
  simp only [List.length_append, frameBytes_length, List.length_singleton, failValue]
  rfl

/-- The listener's buffer discarded (43_stripe.md R238). -/
def discarded (inp : Inputs) (b : Byte) (s : State) : State :=
  { received inp b s with flen := 0, swipeDisc := if s.swipeDisc = 0xFFFF then 0xFFFF else s.swipeDisc + 1 }

/-- A byte the swipe listener receives (43_stripe.md R237). -/
theorem rxByte_swipe {inp : Inputs} {b : Byte} {s : State} (hc : s.command = some .awaitSwipe) :
    rxByte b (begun inp s) =
      if s.swipeFramed then
        if frameComplete s.p1 .sentinel 0 (s.frameBytes ++ [b]) then
          match decodeFrame s.p1 .sentinel 0 (s.frameBytes ++ [b]) with
          | .ok card =>
            if cardOk card then (finish (some .awaitSwipe) .ok .noError 0 (some card) (received inp b s), true)
            else (discarded inp b s, false)
          | .error _ => (discarded inp b s, false)
        else if s.flen.toNat + 1 = Config.fbufDepth then (discarded inp b s, false)
        else (received inp b s, false)
      else if b = s.p1.term then
        if cardOk s.frameBytes then
          (finish (some .awaitSwipe) .ok .noError 0 (some s.frameBytes) (received inp b s), true)
        else (discarded inp b s, false)
      else if s.flen.toNat + 1 = Config.fbufDepth then (discarded inp b s, false)
      else (received inp b s, false) := by
  unfold rxByte
  rw [show (begun inp s).command = some .awaitSwipe from hc]
  simp only [waitMode, commandWaitMode]
  unfold swipeByte endSwipe
  dsimp only
  rw [show (begun inp s).command = some .awaitSwipe from hc, show (begun inp s).p1 = s.p1 from rfl,
    show (begun inp s).frameBytes = s.frameBytes from rfl, show (begun inp s).swipeFramed = s.swipeFramed from rfl]
  simp only [List.length_append, frameBytes_length, List.length_singleton]
  rfl

end Sys2Proof.Laws
end

