-- ==== Sys2Proof/Tests/Slice0.lean ====
section
/-! SUPPORT. The model's own tests: the WellFormed smoke, command words written out from 30_encoding.md, one-step tests whose expected
values are those of spec/95_test_vectors.md, and for every obligation with hypotheses a witness that meets them. -/

namespace Sys2Proof.Tests

open Sys2Proof.Machine Sys2Proof.Safety Sys2Proof.Laws

/-! ## WellFormed (30_encoding.md R95, R106): the one check, LEN = 0 where the shape ignores it -/

theorem test_wf_exchange_sentinel_len : ¬ (Instr.exchange .p1 .sentinel 1).WellFormed := by decide
theorem test_wf_exchange_lenpfx_len : ¬ (Instr.exchange .p0 .lenpfx 255).WellFormed := by decide
theorem test_wf_exchange_none_len : ¬ (Instr.exchange .p0 .noReply 1).WellFormed := by decide
theorem test_wf_decode_sentinel_len : ¬ (Instr.decode .p1 .sentinel 3).WellFormed := by decide
theorem test_wf_decode_lenpfx_len : ¬ (Instr.decode .p1 .lenpfx 3).WellFormed := by decide
theorem test_wf_decode_none_len : ¬ (Instr.decode .p0 .noReply 128).WellFormed := by decide
theorem test_wf_fixed_len : (Instr.exchange .p0 .fixed 255).WellFormed ∧ (Instr.decode .p0 .fixed 255).WellFormed := by decide

/-! ## Command words, bit by bit: LEN [31:24], zeros [23:19], SHAPE [18:17], PSEL [16], ARG [15:8], OP [7:0] (30_encoding.md R90, R91) -/

theorem test_decode_queryInv :
    decodeWord 0b00000000_00000_00_0_00000000_00000001 = .ok .queryInv := by decide
theorem test_decode_hasSoda :
    decodeWord 0b00000000_00000_00_0_00000011_00000010 = .ok (.hasSoda 3) := by decide
theorem test_decode_awaitButton :
    decodeWord 0b00000000_00000_00_0_00111100_00000011 = .ok (.awaitButton 60) := by decide
theorem test_decode_vend :
    decodeWord 0b00000000_00000_00_0_00000111_00000100 = .ok (.vend 7) := by decide
theorem test_decode_readerEnable :
    decodeWord 0b00000000_00000_00_0_10000001_00010000 = .ok (.readerEnable 0x81) := by decide
theorem test_decode_readerDisable :
    decodeWord 0b00000000_00000_00_0_00000001_00010001 = .ok (.readerDisable 1) := by decide
theorem test_decode_setLed :
    decodeWord 0b00000000_00000_00_0_00000010_00010010 = .ok (.setLed 2) := by decide
theorem test_decode_setTracks :
    decodeWord 0b00000000_00000_00_0_00000001_00010011 = .ok (.setTracks 1) := by decide
theorem test_decode_awaitSwipe :
    decodeWord 0b00000000_00000_00_0_00000000_00010100 = .ok .awaitSwipe := by decide
theorem test_decode_exchange :
    decodeWord 0b10000001_00000_00_1_00000000_00100000 = .ok (.exchange .p1 .fixed 0x81) := by decide
theorem test_decode_exchange_none :
    decodeWord 0b00000000_00000_11_1_00000000_00100000 = .ok (.exchange .p1 .noReply 0) := by decide
theorem test_decode_encode :
    decodeWord 0b00000000_00000_00_1_00000000_00100001 = .ok (.encode .p1) := by decide
theorem test_decode_decode :
    decodeWord 0b00000000_00000_10_0_00000000_00100010 = .ok (.decode .p0 .lenpfx 0) := by decide
theorem test_decode_cksum :
    decodeWord 0b00000000_00000_00_1_00000000_00100011 = .ok (.cksum .p1) := by decide
/-- Every ignored bit set (30_encoding.md R97). -/
theorem test_decode_ignored :
    decodeWord 0b11111111_11111_11_1_11111111_00000001 = .ok .queryInv
      ∧ decodeWord 0b11111111_11111_01_0_11111111_00100000 = .ok (.exchange .p0 .sentinel 0) := by decide
/-- Reserved OP values beside the map's ranges (30_encoding.md R98). -/
theorem test_decode_reserved :
    decodeWord 0x00000000 = .error (.badOpcode 0x00) ∧ decodeWord 0x00000005 = .error (.badOpcode 0x05)
      ∧ decodeWord 0x0000000F = .error (.badOpcode 0x0F) ∧ decodeWord 0x00000015 = .error (.badOpcode 0x15)
      ∧ decodeWord 0x0000001F = .error (.badOpcode 0x1F) ∧ decodeWord 0x00000024 = .error (.badOpcode 0x24)
      ∧ decodeWord 0xFFFFFFFF = .error (.badOpcode 0xFF) := by decide

/-! ## One step -/

/-- RESULT and STATUS after a step. -/
def outcome (o : Host.Outcome State Fault Refusal) : Option (Word × Word) :=
  match o with
  | .next t => some (t.resultWord, t.statusWord)
  | .fault _ => none
  | .refused _ => none

/-- FBUF[0..FLEN), TX_IDX and DL_REM after a step. -/
def line (o : Host.Outcome State Fault Refusal) : Option (List Byte × Half × Half) :=
  match o with
  | .next t => some (t.frameBytes, t.txIdx, t.dlCnt)
  | .fault _ => none
  | .refused _ => none

/-- PBUF_RX[0..RXLEN) after a step. -/
def answer (o : Host.Outcome State Fault Refusal) : Option (List Byte) :=
  match o with
  | .next t => some (t.pbufRx.load t.rxlen.toNat)
  | .fault _ => none
  | .refused _ => none

/-- A quiet cycle: no access, no byte, no tick, the transmitter not ready. -/
def quiet : Inputs where
  rst := false
  bus := .idle
  rx := none
  txReady := false
  txErr := false
  tick := false

/-- The step of a host write of a command word. -/
def issued (v : Nat) (s : State) : Host.Outcome State Fault Refusal := step (s.withFetchWord 32 v)

/-- The transmit payload loaded (load_tx of 30_encoding.md R107). -/
def loadTx (bytes : List Byte) : State :=
  { State.reset with pbufTx := Memory.store [] 0 bytes, txlen := BitVec.ofNat 16 bytes.length }

/-- The frame buffer loaded (load_f of 30_encoding.md R107). -/
def loadF (bytes : List Byte) : State :=
  { State.reset with fbuf := Memory.store [] 0 bytes, flen := BitVec.ofNat 16 bytes.length }

/-- A machine that waits for the reply to command word v, has received some bytes, and whose next cycle is given. -/
def waiting (v : Word) (bytes : List Byte) (inp : Inputs) : State :=
  { loadF bytes with xstate := .awaitingReply, cmd := v, txIdx := 1, dlCnt := 3, inputs := [inp] }

/-- A machine that sends a frame for command word v, and whose next cycle is given. -/
def sending (v : Word) (bytes : List Byte) (idx : Half) (inp : Inputs) : State :=
  { loadF bytes with xstate := .commandSent, cmd := v, txIdx := idx, dlCnt := 1000, inputs := [inp] }

/-- The machine after QUERY_INV is issued at reset. -/
def querying : State := sending 0x00000001 [0x53] 0 quiet

/-- A cycle that brings a byte. -/
def brings (b : Byte) : Inputs := { quiet with rx := some b }

/-- 95_test_vectors.md 1.2: the inventory query frame is 53; 2.6: a deadline of REPLY_TIMEOUT = 1000. -/
theorem test_queryInv_sends : line (issued 0x00000001 State.reset) = some ([0x53], 0, 1000) := by decide
/-- 95_test_vectors.md 1.1. -/
theorem test_queryInv_reply :
    outcome (step (waiting 0x00000001 [0x53, 0x30] (brings 0x37))) = some (0x00070001, 0x13)
      ∧ answer (step (waiting 0x00000001 [0x53, 0x30] (brings 0x37))) = some [0x53, 0x30, 0x37] := by decide
/-- 95_test_vectors.md 1.4. -/
theorem test_hasSoda_slot8 :
    outcome (issued 0x00000802 State.reset) = some (0x00000804, 0x10)
      ∧ line (issued 0x00000802 State.reset) = some ([], 0, 0) := by decide
/-- 95_test_vectors.md 2.7: the bitmap 0x07 has slot 2 and not slot 3. -/
theorem test_hasSoda_reply :
    outcome (step (waiting 0x00000202 [0x53, 0x30] (brings 0x37))) = some (0x00010001, 0x13)
      ∧ outcome (step (waiting 0x00000302 [0x53, 0x30] (brings 0x37))) = some (0x00000001, 0x13) := by decide
/-- 95_test_vectors.md 1.4: 0 and 61 seconds. -/
theorem test_awaitButton_range :
    outcome (issued 0x00000003 State.reset) = some (0x00000804, 0x10)
      ∧ outcome (issued 0x00003D03 State.reset) = some (0x00000804, 0x10) := by decide
/-- 95_test_vectors.md 1.4: after the letter B is handed off, DL = 60000. -/
theorem test_awaitButton_wait :
    line (step (sending 0x00003C03 [0x42] 0 { quiet with txReady := true })) = some ([], 1, 60000) := by decide
/-- 95_test_vectors.md 1.4: VALUE 3. -/
theorem test_vend_slot8 : outcome (issued 0x00000804 State.reset) = some (0x00030804, 0x10) := by decide
/-- 95_test_vectors.md 2.8: slot 3 is empty; slot 2 gets the vend frame 56 02. -/
theorem test_vend_inventory :
    outcome (step (waiting 0x00000304 [0x53, 0x30] (brings 0x37))) = some (0x00020001, 0x13)
      ∧ line (step (waiting 0x00000204 [0x53, 0x30] (brings 0x37))) = some ([0x56, 0x02], 0, 1000) := by decide
/-- 43_stripe.md R230, 10_state.md R39: HDR_LEN = 3 in P1 is BAD_PROFILE before the template is looked at. -/
theorem test_stripe_badProfile :
    ∀ v ∈ [0x00000010, 0x00000011, 0x00000212, 0x00000113],
      outcome (issued v { State.reset with p1 := Profile.resetP1.setFrame 0x0300600F }) = some (0x00000904, 0x10) := by
  decide
/-- 95_test_vectors.md 2.9: set_led 2 sends 60 00 4C 02 2E 03, in an instance whose template for it is 4C 02. -/
theorem test_setLed_sends (h : Config.stripeTemplate 0x12 2 = some [0x4C, 0x02]) :
    line (exec (.setLed 2) State.reset) = some ([0x60, 0x00, 0x4C, 0x02, 0x2E, 0x03], 0, 1000) := by
  have e : exec (.setLed 2) State.reset
      = .next (issue (.setLed 2) ([(false, .badProfile), (false, .badArgument), (false, .badArgument)]
        ++ checkFrame Profile.resetP1 [0x4C, 0x02])
        (sendFrame (frameOf Profile.resetP1 [0x4C, 0x02]) false) State.reset) := by
    simp only [exec, execSetLed, fireAndForget, checkTemplate, templatePayload, h, Option.isNone_some, Option.getD_some]
    congr 1
    unfold issue startExchange
    simp only [commandParams, stripeParams, templatePayload, h, Option.getD_some]
    rfl
  rw [e]
  decide
/-- 95_test_vectors.md 2.9: after the settle wait the command finishes OK (here its last tick). -/
theorem test_setLed_settles :
    outcome (step { waiting 0x00000212 [] { quiet with tick := true } with dlCnt := 1 }) = some (0x00000001, 0x13) := by
  decide
/-- 95_test_vectors.md 2.9: the listener starts with DL = 1000 in the issue cycle and sends nothing. -/
theorem test_awaitSwipe_listens :
    outcome (issued 0x00000014 State.reset) = some (0, 0x0A)
      ∧ line (issued 0x00000014 State.reset) = some ([], 0, 1000) := by decide
/-- 95_test_vectors.md 2.9: the smallest card, and a buffer without the trailing sentinel, which is discarded. -/
theorem test_awaitSwipe_card :
    answer (step (waiting 0x00000014 [0x3B, 0x3F] (brings 0x03))) = some [0x3B, 0x3F]
      ∧ line (step (waiting 0x00000014 [0x3B, 0x31] (brings 0x03))) = some ([], 1, 3) := by decide
/-- 95_test_vectors.md 2.6: exchange p1, sentinel sends 60 00 01 61 03; 2.6: the fixed 0 form under P0 can't be delimited. -/
theorem test_exchange_issue :
    line (issued 0x00030020 (loadTx [0x01])) = some ([0x60, 0x00, 0x01, 0x61, 0x03], 0, 1000)
      ∧ outcome (issued 0x00000020 (loadTx [0x41])) = some (0x00000804, 0x10) := by decide
/-- 95_test_vectors.md 2.6: a good reply, and one with a bad checksum. -/
theorem test_exchange_reply :
    outcome (step (waiting 0x00030020 [0x60, 0x00, 0x05, 0x65] (brings 0x03))) = some (0x00000001, 0x13)
      ∧ outcome (step (waiting 0x00030020 [0x60, 0x00, 0x05, 0x64] (brings 0x03))) = some (0x00000103, 0x14) := by
  decide
/-- 95_test_vectors.md 2.2. -/
theorem test_encode_frame :
    line (issued 0x00010021 (loadTx [0x60, 0x05])) = some ([0x60, 0x00, 0x60, 0x05, 0x05, 0x03], 0, 0)
      ∧ outcome (issued 0x00010021 (loadTx [0x60, 0x05])) = some (0x00050001, 0x10) := by decide
/-- 95_test_vectors.md 2.2: the LRC equals TERM. -/
theorem test_encode_collision : outcome (issued 0x00010021 (loadTx [0x63])) = some (0x00000A04, 0x10) := by decide
/-- 95_test_vectors.md 2.4: a length-prefixed payload. -/
theorem test_decode_lenpfx :
    answer (issued 0x00050022 (loadF [0x60, 0x00, 0x01, 0xAA, 0xCB, 0x03])) = some [0x01, 0xAA] := by decide
/-- 95_test_vectors.md 2.3: escaped bytes, and a trailing lone ESC. -/
theorem test_decode_escape :
    answer (issued 0x00030022 { loadF [0x60, 0x00, 0x10, 0x23, 0x63, 0x03] with
        p1 := Profile.resetP1.setFrame 0x0300601E }) = some [0x03]
      ∧ outcome (issued 0x00030022 { loadF [0x60, 0x00, 0x10, 0x23, 0x10, 0x03] with
        p1 := Profile.resetP1.setFrame 0x0300601E }) = some (0x00000503, 0x10) := by decide
/-- 95_test_vectors.md 2.1. -/
theorem test_cksum : outcome (issued 0x00010023 (loadTx [0x12, 0x34, 0x56, 0x78])) = some (0x00680001, 0x10) := by
  decide
/-- 95_test_vectors.md 2.1: CKSUM checks no profile, and CMD keeps the ignored bits. -/
theorem test_cksum_ignored : outcome (issued 0xDEAD0023 State.reset) = some (0x00600001, 0x10) := by decide
/-- 95_test_vectors.md 2.6, T6: the transmit error wins over the handshake. -/
theorem test_txErr :
    outcome (step (sending 0x00030020 [0x60, 0x00, 0x01, 0x61, 0x03] 2 { quiet with txReady := true, txErr := true }))
      = some (0x00000C05, 0x16) := by decide
/-- 95_test_vectors.md 2.6, T4 and T1: the deadline's last tick while sending, and while waiting. -/
theorem test_expire :
    outcome (step { sending 0x00000001 [0x53] 0 { quiet with tick := true } with dlCnt := 1 }) = some (0x00000B05, 0x16)
      ∧ outcome (step { waiting 0x00000001 [] { quiet with tick := true } with dlCnt := 1 }) = some (0x00000002, 0x15) := by
  decide
/-- 41_exchange.md R183 (b): the tick of the last handed-off byte is not counted, that of an earlier one is. -/
theorem test_tick_handoff :
    line (step (sending 0x00000001 [0x53] 0 { quiet with txReady := true, tick := true })) = some ([], 1, 1000)
      ∧ line (step (sending 0x00030020 [0x60, 0x00] 0 { quiet with txReady := true, tick := true }))
        = some ([0x60, 0x00], 1, 999) := by decide
/-- 10_state.md R31: FLAGCLR while sending clears CMD_REJ, and RX_DROP stays set by the byte dropped in the same cycle. -/
theorem test_flagclr_event :
    outcome (clockCycle { brings 0x41 with bus := .write 0x00C 0x00000002 } { querying with rxDrop := true, cmdRej := true })
      = some (0x00000000, 0x109) := by decide
/-- 41_exchange.md R160, R178: while a reply is awaited the UART's transmit signals do nothing, with and without a tick. -/
theorem test_await_ignores_tx :
    line (step (waiting 0x00000001 [0x53] { quiet with txReady := true, txErr := true })) = some ([0x53], 1, 3)
      ∧ line (step (waiting 0x00000001 [0x53] { quiet with txReady := true, tick := true })) = some ([0x53], 1, 2) := by decide

/-! ## Witnesses: for every obligation with hypotheses, a concrete case that meets all of them together -/

/-- The low half of a word that holds a number below 2^16 is that number. -/
theorem low_half_le {n : Nat} (h : n < 65536) : ((BitVec.ofNat 32 n : Word).extractLsb' 0 16).toNat ≤ n := by
  rw [BitVec.extractLsb'_toNat, BitVec.toNat_ofNat]
  simp only [Nat.shiftRight_zero]
  omega

theorem witness_DecodeOfEncode : (Instr.exchange .p1 .fixed 255).WellFormed ∧ (Instr.vend 255).WellFormed := by decide

theorem witness_DecodeKeepsUsedFields : decodeWord 0xFFFFFF20 = .ok (.exchange .p1 .noReply 0) := by decide

theorem witness_IgnoredFieldsHaveNoEffect :
    (0x00000302 : Word) &&& usedBits 0x00000302 = 0xFFFF0302 &&& usedBits 0xFFFF0302
      ∧ (0x00F80001 : Word) &&& 0xFF07FFFF = 0x00000001 &&& 0xFF07FFFF
      ∧ quiet.rst = false ∧ State.reset.busy = false
      ∧ ∃ t, clockCycle { quiet with bus := .write 0x010 0xDEAD0023 } State.reset = .next t :=
  ⟨by decide, by decide, rfl, rfl, _, rfl⟩

theorem witness_ReservedOpcodeFinishes :
    (0xFFFFFF24 : Word).extractLsb' 0 8 ∉ opcodes ∧ (0x00000000 : Word).extractLsb' 0 8 ∉ opcodes
      ∧ quiet.rst = false ∧ State.reset.busy = false ∧ quiet.rx = none := by decide

theorem witness_ChecksumDetectsOneByte :
    0 < ([0x01] : List Byte).length ∧ ([0x01] : List Byte)[0]? ≠ some 0x00 ∧ 0 < 1 ∧ 1 < ([0x01, 0x02] : List Byte).length := by
  decide

/-- P1 with escaping on (95_test_vectors.md 2.3). -/
def escaped : Profile := Profile.resetP1.setFrame 0x0300601E

theorem witness_UnstuffInvertsStuff : escaped.valid = true ∧ escaped.escEn = true := by decide

/-- A payload of PMAX bytes, the longest. -/
theorem witness_FrameFitsBuffer :
    (List.replicate Config.pmax 0x11#8).length ≤ Config.pmax
      ∧ encodeFrame Profile.resetP0 (List.replicate Config.pmax 0x11#8) = .ok (List.replicate Config.pmax 0x11#8) := by
  simp [encodeFrame, Profile.resetP0, Profile.header, stuff, checkBytes, termBytes]

theorem witness_VendingFramesBare : (7 : Byte).toNat ≤ 7 := by decide

theorem witness_StripeFrameLayout :
    (0x03#8 ∉ ([] : List Byte) ∧ xorfold 0x60 [] ≠ 0x03) ∧ 0x03#8 ∉ ([0x01] : List Byte) ∧ xorfold 0x60 [0x01] ≠ 0x03 := by
  decide

/-- Also of DelimiterFindsFrame and TamperedFrameRejected: the P1 frame of 01, its last index 4 and a changed byte. -/
theorem witness_DecodeOfEncodeFrame :
    Profile.resetP1.valid = true ∧ Profile.resetP1.ckEn = true ∧ Profile.resetP1.termEn = true
      ∧ Profile.resetP1.escEn = false ∧ ([0x01] : List Byte).length ≤ Config.pmax
      ∧ encodeFrame Profile.resetP1 [0x01] = .ok [0x60, 0x00, 0x01, 0x61, 0x03]
      ∧ 4 < ([0x60, 0x00, 0x01, 0x61, 0x03] : List Byte).length
      ∧ ([0x60, 0x00, 0x01, 0x61, 0x03] : List Byte)[4]? ≠ some 0x83
      ∧ ([0x60, 0x00, 0x01, 0x61, 0x03] : List Byte)[3]? ≠ some 0xE1
      ∧ ([0x60, 0x00, 0x01, 0x61, 0x03] : List Byte)[0]? ≠ some 0x61 := by decide

theorem witness_DecodeAcceptsOnlyFrames :
    decodeFrame Profile.resetP1 .sentinel 0 [0x60, 0x00, 0x01, 0x61, 0x03] = .ok [0x01]
      ∧ decodeFrame Profile.resetP0 .fixed 3 [0x53, 0x30, 0x37] = .ok [0x53, 0x30, 0x37]
      ∧ decodeFrame Profile.resetP0 .lenpfx 0 [0x02, 0x0A, 0x0B] = .ok [0x02, 0x0A, 0x0B] := by decide

theorem witness_ResetValues : ({ quiet with rst := true } : Inputs).rst = true := rfl

/-- A sending machine, the UART ready, a read, no reset. -/
theorem witness_OutputsOfStartState :
    (∃ t, clockCycle { quiet with txReady := true, bus := .read 0x008 } (sending 0x00000001 [0x53] 0 quiet) = .next t)
      ∧ (sending 0x00000001 [0x53] 0 quiet).xstate = .commandSent := ⟨⟨_, rfl⟩, rfl⟩

theorem witness_ReadsChangeNothing :
    (∃ t, clockCycle { quiet with bus := .read 0x2000 } State.reset = .next t)
      ∧ ∃ u, clockCycle { quiet with bus := .idle } State.reset = .next u := ⟨⟨_, rfl⟩, _, rfl⟩

/-- The first and the last slot of each window, and each kind of address outside the map. -/
theorem witness_WindowReads :
    (0 < Config.pmax ∧ (0x1000 : Half).toNat = 0x1000 + 4 * 0 ∧ (0x2000 : Half).toNat = 0x2000 + 4 * 0)
      ∧ (Config.pmax - 1 < Config.pmax
        ∧ (BitVec.ofNat 16 (0x1000 + 4 * (Config.pmax - 1)) : Half).toNat = 0x1000 + 4 * (Config.pmax - 1)
        ∧ (BitVec.ofNat 16 (0x2000 + 4 * (Config.pmax - 1)) : Half).toNat = 0x2000 + 4 * (Config.pmax - 1))
      ∧ (Config.fbufDepth - 1 < Config.fbufDepth
        ∧ (BitVec.ofNat 16 (0x3000 + 4 * (Config.fbufDepth - 1)) : Half).toNat = 0x3000 + 4 * (Config.fbufDepth - 1))
      ∧ (0x00A : Half).toNat % 4 ≠ 0 := by
  have pb := pmax_bounds
  have fd := fbufDepth_eq
  refine ⟨⟨by omega, by decide, by decide⟩, ⟨by omega, ?_, ?_⟩, ⟨by omega, ?_⟩, by decide⟩ <;>
    rw [BitVec.toNat_ofNat, Nat.mod_eq_of_lt (by omega)]

theorem witness_unmapped :
    unmapped 0x03C ∧ unmapped 0x050 ∧ unmapped 0xFFC ∧ unmapped 0x4000 ∧ unmapped 0xFFFC ∧ unmapped 0x1FFC
      ∧ unmapped 0x2FFC ∧ unmapped 0x3FFC ∧ ¬ unmapped 0x04C ∧ ¬ unmapped 0x1000 ∧ ¬ unmapped 0x2000 ∧ ¬ unmapped 0x3000 := by
  have pb := pmax_bounds
  have fd := fbufDepth_eq
  simp [unmapped]
  omega

/-- Each kind of bad write, on a cycle that answers. -/
theorem witness_BadWritesSetBusErr :
    quiet.rst = false ∧ (0x012 : Half).toNat % 4 ≠ 0 ∧ readOnly 0x000 ∧ readOnly 0x038 ∧ readOnly 0x2000
      ∧ (∃ t, clockCycle { quiet with bus := .write 0x038 0xFFFFFFFF } State.reset = .next t)
      ∧ ∃ u, clockCycle { quiet with bus := .idle } State.reset = .next u :=
  ⟨rfl, by decide, .inl (by decide), .inl (by decide), .inr ⟨0, by have := pmax_bounds; omega, by decide⟩, ⟨_, rfl⟩, _, rfl⟩

/-- A busy machine, and an address or a value for each clause. -/
theorem witness_RefusedWrites :
    quiet.rst = false ∧ (waiting 0x00000001 [] quiet).busy = true
      ∧ lockedWhileBusy 0x018 ∧ lockedWhileBusy 0x04C ∧ lockedWhileBusy 0x3000
      ∧ (0x0000000F : Word).getLsbD 2 = true ∧ (0x0000000F : Word).getLsbD 1 = true ∧ (0x00000004 : Word).getLsbD 1 = false
      ∧ Config.pmax < ((0x0000FFFF : Word).extractLsb' 0 16).toNat
      ∧ Config.fbufDepth < ((0x0000FFFF : Word).extractLsb' 0 16).toNat
      ∧ ((BitVec.ofNat 32 Config.pmax : Word).extractLsb' 0 16).toNat ≤ Config.pmax
      ∧ (∃ t, clockCycle { quiet with bus := .write 0x010 0x00000001 } (waiting 0x00000001 [] quiet) = .next t)
      ∧ ∃ u, clockCycle { quiet with bus := .idle } (waiting 0x00000001 [] quiet) = .next u := by
  have pb := pmax_bounds
  have fd := fbufDepth_eq
  refine ⟨rfl, rfl, .inl (by decide), .inl (by decide), .inr ⟨0, by omega, by decide⟩, by decide, by decide, by decide,
    ?_, ?_, ?_, ⟨_, rfl⟩, _, rfl⟩
  · rw [show ((0x0000FFFF : Word).extractLsb' 0 16).toNat = 65535 by decide]; omega
  · rw [show ((0x0000FFFF : Word).extractLsb' 0 16).toNat = 65535 by decide]; omega
  · exact low_half_le (by omega)

/-- A register; the first and last entry of a buffer; TXLEN and FLEN at the ends of their ranges. -/
theorem witness_WriteReadsBack :
    quiet.rst = false ∧ State.reset.busy = false ∧ State.reset.pbufTx.wf = true ∧ State.reset.fbuf.wf = true
      ∧ (∃ t, clockCycle { quiet with bus := .write 0x04C 0xFFFFFFFF } State.reset = .next t)
      ∧ 0 < Config.pmax ∧ 0 < Config.fbufDepth
      ∧ ((0xFFFF0000 : Word).extractLsb' 0 16).toNat ≤ Config.pmax
      ∧ ((BitVec.ofNat 32 Config.pmax : Word).extractLsb' 0 16).toNat ≤ Config.pmax
      ∧ ((BitVec.ofNat 32 Config.fbufDepth : Word).extractLsb' 0 16).toNat ≤ Config.fbufDepth := by
  have pb := pmax_bounds
  have fd := fbufDepth_eq
  refine ⟨rfl, rfl, rfl, rfl, ⟨_, rfl⟩, by omega, by omega, ?_, ?_, ?_⟩
  · rw [show ((0xFFFF0000 : Word).extractLsb' 0 16).toNat = 0 by decide]; omega
  · exact low_half_le (by omega)
  · exact low_half_le (by omega)

/-- Cycles that answer, FLEN at the end of its range, and the first and the last entry of FBUF. -/
theorem witness_WritesStoreNothingElse :
    quiet.rst = false ∧ State.reset.busy = false
      ∧ (∃ t, clockCycle { quiet with bus := .write 0x018 0x00000007 } State.reset = .next t)
      ∧ (∃ t, clockCycle { quiet with bus := .write 0x044 0x00000007 } State.reset = .next t)
      ∧ (∃ t, clockCycle { quiet with bus := .write 0x3000 0x00000007 } State.reset = .next t)
      ∧ (∃ u, clockCycle { quiet with bus := .idle } State.reset = .next u)
      ∧ ((BitVec.ofNat 32 Config.fbufDepth : Word).extractLsb' 0 16).toNat ≤ Config.fbufDepth
      ∧ (0 < Config.fbufDepth ∧ (0x3000 : Half).toNat = 0x3000 + 4 * 0)
      ∧ Config.fbufDepth - 1 < Config.fbufDepth
      ∧ (BitVec.ofNat 16 (0x3000 + 4 * (Config.fbufDepth - 1)) : Half).toNat = 0x3000 + 4 * (Config.fbufDepth - 1) := by
  have pb := pmax_bounds
  have fd := fbufDepth_eq
  refine ⟨rfl, rfl, ⟨_, rfl⟩, ⟨_, rfl⟩, ?_, ⟨_, rfl⟩, low_half_le (by omega), ⟨by omega, by decide⟩, by omega, ?_⟩
  · simp only [clockCycle, hostAccess, targetOf_fbuf (a := 0x3000) (i := 0) (by omega) (by decide)]
    exact ⟨_, rfl⟩
  · rw [BitVec.toNat_ofNat, Nat.mod_eq_of_lt (by omega)]

/-- A machine that is not busy, and one that is, each on a cycle that answers. -/
theorem witness_CtrlActions :
    quiet.rst = false ∧ State.reset.busy = false ∧ quiet.rx = none
      ∧ querying.busy = true ∧ querying.done = false
      ∧ (∃ t, clockCycle { brings 0x41 with bus := .write 0x00C 0x0000000B } querying = .next t)
      ∧ ∃ u, clockCycle { brings 0x41 with bus := .idle } querying = .next u :=
  ⟨rfl, rfl, rfl, by decide, rfl, ⟨_, rfl⟩, _, rfl⟩

/-- Cycles that answer, with each kind of event and with and without the clear. -/
theorem witness_StickyFlagsStay :
    quiet.rst = false
      ∧ (∃ t, clockCycle { brings 0x41 with bus := .write 0x00C 0x00000002 } querying = .next t)
      ∧ flagsCleared (.write 0x00C 0x00000002) = true ∧ flagsCleared (.write 0x00C 0x0000000D) = false
      ∧ byteDropped (brings 0x41) querying = true ∧ byteDropped (brings 0x41) (waiting 0x00000001 [] quiet) = false
      ∧ swipeDiscarded (brings 0x03) (waiting 0x00000014 [0x31] quiet) = true
      ∧ swipeDiscarded (brings 0x31) (waiting 0x00000001 [] quiet) = false
      ∧ badWrite 0x00A ∧ badWrite 0x008
      ∧ refusedWrite querying 0x018 0x00000000 ∧ refusedWrite querying 0x00C 0x00000004
      ∧ refusedWrite State.reset 0x024 0x0000FFFF ∧ refusedWrite State.reset 0x02C 0x0000FFFF := by
  have pb := pmax_bounds
  have fd := fbufDepth_eq
  have e : ((0x0000FFFF : Word).extractLsb' 0 16).toNat = 65535 := by decide
  refine ⟨rfl, ⟨_, rfl⟩, by decide, by decide, by decide, by decide, by decide, by decide, .inl (by decide),
    .inr (.inr (.inl (by decide))), .inl ⟨by decide, .inl (by decide)⟩, .inr (.inl ⟨by decide, rfl, by decide⟩),
    .inr (.inr (.inl ⟨rfl, ?_⟩)), .inr (.inr (.inr ⟨rfl, ?_⟩))⟩ <;> rw [e] <;> omega

theorem witness_StepRunsCommand :
    (State.reset.withFetchWord 32 0x00000204).nextInputs = commandInputs 0x00000204
      ∧ (commandInputs 0x00000204).rst = false ∧ (commandInputs 0x00000204).bus = .write 0x010 0x00000204
      ∧ (State.reset.withFetchWord 32 0x00000204).busy = false ∧ decodeWord 0x00000204 = .ok (.vend 2) := by decide

/-- The invariant holds of a running machine, not at reset only. -/
theorem witness_RunInv : RunInv querying := by
  constructor <;> decide

/-- Of StepKeepsInv, StateMovesByTable, ClassFitsCommand, TicksLeftRunDown, BusyKeepsConfiguration, TxBufferNotReadWhileBusy. -/
theorem witness_running :
    RunInv querying ∧ quiet.rst = false ∧ querying.busy = true ∧ querying.command = some .queryInv
      ∧ canFinish querying.command querying.resClass = true ∧ classAllows querying.resClass querying.resErr = true
      ∧ (∃ t, step querying = .next t) ∧ (∃ t, clockCycle quiet querying = .next t)
      ∧ ∃ t, clockCycle quiet { querying with pbufTx := [(0, 1)], txlen := 1 } = .next t :=
  ⟨witness_RunInv, rfl, by decide, by decide, by decide, by decide, ⟨_, rfl⟩, ⟨_, rfl⟩, _, rfl⟩

/-- A command that starts, from a machine that is not busy. -/
theorem witness_TicksLeftRunDown_start :
    State.reset.busy = false ∧ ∃ t, exec .queryInv State.reset = .next t ∧ t.busy = true := ⟨rfl, _, rfl, by decide⟩

/-- The cycle that begins phase 1 (95_test_vectors.md 2.8). -/
theorem witness_VendOnlyWhenStocked :
    (waiting 0x00000204 [0x53, 0x30] quiet).phase = false
      ∧ ∃ t, clockCycle (brings 0x37) (waiting 0x00000204 [0x53, 0x30] quiet) = .next t ∧ t.phase = true :=
  ⟨rfl, _, rfl, by decide⟩

/-- A byte while sending, and a byte in the settle wait. -/
theorem witness_StrayByteDropped :
    quiet.rst = false ∧ querying.xstate ≠ .awaitingReply
      ∧ waitMode (waiting 0x00000212 [] quiet).command = .settle
      ∧ (∃ t, clockCycle { quiet with rx := some 0x41 } querying = .next t) ∧ ∃ u, clockCycle { quiet with rx := none } querying = .next u :=
  ⟨rfl, by decide, by decide, ⟨_, rfl⟩, _, rfl⟩

theorem witness_IdleDoesNothing : quiet.rst = false ∧ State.reset.busy = false ∧ quiet.rx = none ∧ quiet.bus = .idle :=
  ⟨rfl, rfl, rfl, rfl⟩

/-- The last byte and one before it, in reply mode, and the last byte of a settle command with SETTLE = 0. The
tick is free. -/
theorem witness_TransmitHandsOff :
    (quiet.rst = false ∧ quiet.bus = .idle ∧ quiet.rx = none)
      ∧ (querying.xstate = .commandSent ∧ querying.command = some .queryInv ∧ ready .queryInv querying = true
        ∧ querying.txIdx + 1 = querying.flen ∧ commandWaitMode .queryInv ≠ .settle)
      ∧ (sending 0x00030020 [0x60, 0x00] 0 quiet).txIdx + 1 ≠ (sending 0x00030020 [0x60, 0x00] 0 quiet).flen
      ∧ ready (.exchange .p1 .sentinel 0) (sending 0x00030020 [0x60, 0x00] 0 quiet) = true
      ∧ (ready (.setLed 2) { sending 0x00000212 [0x60] 0 quiet with settle := 0 } = true
        ∧ commandWaitMode (.setLed 2) = .settle
        ∧ ({ sending 0x00000212 [0x60] 0 quiet with settle := 0 } : State).txIdx + 1
          = ({ sending 0x00000212 [0x60] 0 quiet with settle := 0 } : State).flen) := by decide

/-- A deadline of 2 and of 1; awaiting a reply with the UART ready, in the settle wait, and sending with the UART not ready. -/
theorem witness_TickCountsDeadline :
    (quiet.rst = false ∧ quiet.bus = .idle ∧ quiet.rx = none ∧ quiet.txErr = false ∧ quiet.txReady = false)
      ∧ (({ quiet with txReady := true, tick := true } : Inputs).rx = none
        ∧ (waiting 0x00000001 [] quiet).command = some .queryInv ∧ ready .queryInv (waiting 0x00000001 [] quiet) = true
        ∧ (waiting 0x00000001 [] quiet).xstate = .awaitingReply ∧ commandWaitMode .queryInv ≠ .settle)
      ∧ 1 < ({ waiting 0x00000001 [] quiet with dlCnt := 2 } : State).dlCnt.toNat
      ∧ ({ waiting 0x00000001 [] quiet with dlCnt := 1 } : State).dlCnt.toNat ≤ 1
      ∧ ((waiting 0x00000212 [] quiet).command = some (.setLed 2) ∧ ready (.setLed 2) (waiting 0x00000212 [] quiet) = true
        ∧ commandWaitMode (.setLed 2) = .settle)
      ∧ querying.xstate = .commandSent ∧ querying.command = some .queryInv ∧ ready .queryInv querying = true := by decide

/-- Of InventoryReply: the reply 53 30 37 for QUERY_INV and HAS_SODA, and a reply without a bitmap. -/
theorem witness_InventoryReply :
    bringsByte (brings 0x37) 0x37 (waiting 0x00000001 [0x53, 0x30] quiet)
      ∧ (waiting 0x00000001 [0x53, 0x30] quiet).pbufRx.wf = true
      ∧ frameComplete Profile.resetP0 .fixed 3 ((waiting 0x00000001 [0x53, 0x30] quiet).frameBytes ++ [0x37]) = true
      ∧ decodeFrame Profile.resetP0 .fixed 3 ((waiting 0x00000001 [0x53, 0x30] quiet).frameBytes ++ [0x37])
          = .ok [0x53, 0x30, 0x37]
      ∧ invBitmap [0x53, 0x30, 0x37] = some 0x07 ∧ invBitmap [0x53, 0x30, 0x47] = none
      ∧ (waiting 0x00000001 [0x53, 0x30] quiet).command = some .queryInv
      ∧ (waiting 0x00000702 [0x53, 0x30] quiet).command = some (.hasSoda 7) :=
  ⟨⟨rfl, rfl, rfl, rfl⟩, rfl, by decide, by decide, by decide, by decide, by decide, by decide⟩

theorem witness_HexPairBitmap :
    (15 : Byte).toNat < 16 ∧ invBitmap [0x53, 0x66, 0x46] = some 0xFF ∧ invBitmap [0x53, 0x30, 0x39] = some 0x09 := by decide

theorem witness_ButtonReply :
    bringsByte (brings 0x02) 0x02 (waiting 0x00000503 [] quiet) ∧ (waiting 0x00000503 [] quiet).pbufRx.wf = true
      ∧ (waiting 0x00000503 [] quiet).command = some (.awaitButton 5)
      ∧ frameComplete Profile.resetP0 .fixed 1 ((waiting 0x00000503 [] quiet).frameBytes ++ [0x02]) = true
      ∧ decodeFrame Profile.resetP0 .fixed 1 ((waiting 0x00000503 [] quiet).frameBytes ++ [0x02]) = .ok [0x02] :=
  ⟨⟨rfl, rfl, rfl, rfl⟩, rfl, by decide, by decide, by decide⟩

theorem witness_VendInventoryReply :
    bringsByte (brings 0x37) 0x37 (waiting 0x00000204 [0x53, 0x30] quiet)
      ∧ (waiting 0x00000204 [0x53, 0x30] quiet).pbufRx.wf = true ∧ (waiting 0x00000204 [0x53, 0x30] quiet).fbuf.wf = true
      ∧ (waiting 0x00000204 [0x53, 0x30] quiet).command = some (.vend 2)
      ∧ (waiting 0x00000204 [0x53, 0x30] quiet).phase = false
      ∧ frameComplete Profile.resetP0 .fixed 3 ((waiting 0x00000204 [0x53, 0x30] quiet).frameBytes ++ [0x37]) = true
      ∧ decodeFrame Profile.resetP0 .fixed 3 ((waiting 0x00000204 [0x53, 0x30] quiet).frameBytes ++ [0x37])
          = .ok [0x53, 0x30, 0x37]
      ∧ (0x07 : Byte).getLsbD 2 = true ∧ (0x07 : Byte).getLsbD 3 = false
      ∧ encodeFrame Profile.resetP0 [0x56, 0x02] = .ok [0x56, 0x02] :=
  ⟨⟨rfl, rfl, rfl, rfl⟩, rfl, by decide, by decide, rfl, by decide, by decide, by decide, by decide, by decide⟩

/-- The confirmation Y, and another byte. -/
theorem witness_VendConfirmReply :
    bringsByte (brings 0x59) 0x59 { waiting 0x00000204 [] quiet with phase := true }
      ∧ ({ waiting 0x00000204 [] quiet with phase := true } : State).pbufRx.wf = true
      ∧ ({ waiting 0x00000204 [] quiet with phase := true } : State).command = some (.vend 2)
      ∧ frameComplete Profile.resetP0 .fixed 1 ((waiting 0x00000204 [] quiet).frameBytes ++ [0x59]) = true
      ∧ decodeFrame Profile.resetP0 .fixed 1 ((waiting 0x00000204 [] quiet).frameBytes ++ [0x59]) = .ok [0x59]
      ∧ decodeFrame Profile.resetP0 .fixed 1 ((waiting 0x00000204 [] quiet).frameBytes ++ [0x4E]) = .ok [0x4E] :=
  ⟨⟨rfl, rfl, rfl, rfl⟩, rfl, by decide, by decide, by decide, by decide⟩

/-- P0 with the terminator 0x0D and nothing else. -/
def terminated : Profile := Profile.resetP0.setFrame 0x0D000008

/-- The reply 53 0D, complete and too short for FIXED 3; a byte that completes nothing, also as the last one the buffer takes, whatever
came before it; and the commands, VEND in both phases. -/
theorem witness_VendingReplyBytes :
    bringsByte (brings 0x0D) 0x0D { waiting 0x00000204 [0x53] quiet with p0 := terminated }
      ∧ (({ waiting 0x00000204 [0x53] quiet with p0 := terminated } : State).command = some (.vend 2)
        ∧ replyLength (.vend 2) false = some 3 ∧ replyLength (.vend 2) true = some 1)
      ∧ ((waiting 0x00000001 [] quiet).command = some .queryInv ∧ replyLength .queryInv false = some 3)
      ∧ ((waiting 0x00000702 [] quiet).command = some (.hasSoda 7) ∧ replyLength (.hasSoda 7) false = some 3)
      ∧ ((waiting 0x00000503 [] quiet).command = some (.awaitButton 5) ∧ replyLength (.awaitButton 5) false = some 1)
      ∧ frameComplete terminated .fixed 3 ([0x53] ++ [0x0D]) = true
      ∧ decodeFrame terminated .fixed 3 ([0x53] ++ [0x0D]) = .error .unexpectedLength
      ∧ (∀ bytes : List Byte, frameComplete terminated .fixed 3 (bytes ++ [0x41]) = false)
      ∧ (BitVec.ofNat 16 (Config.fbufDepth - 1) : Half).toNat + 1 = Config.fbufDepth
      ∧ (waiting 0x00000204 [0x53] quiet).flen.toNat + 1 ≠ Config.fbufDepth := by
  have pb := pmax_bounds
  have fd := fbufDepth_eq
  refine ⟨⟨rfl, rfl, rfl, rfl⟩, by decide, by decide, by decide, by decide, by decide, by decide, fun bytes => ?_, ?_, ?_⟩
  · simp [frameComplete, terminated, Profile.setFrame]
  · rw [BitVec.toNat_ofNat, Nat.mod_eq_of_lt (by omega)]; omega
  · rw [show (waiting 0x00000204 [0x53] quiet).flen.toNat = 1 by decide]; omega

/-- A complete frame with a payload, one with a bad checksum, an incomplete one, and the last byte of the buffer. -/
theorem witness_ExchangeReply :
    bringsByte (brings 0x03) 0x03 (waiting 0x00030020 [0x60, 0x00, 0x05, 0x65] quiet)
      ∧ (waiting 0x00030020 [0x60, 0x00, 0x05, 0x65] quiet).pbufRx.wf = true
      ∧ (waiting 0x00030020 [0x60, 0x00, 0x05, 0x65] quiet).command = some (.exchange .p1 .sentinel 0)
      ∧ frameComplete Profile.resetP1 .sentinel 0 [0x60, 0x00, 0x05, 0x65, 0x03] = true
      ∧ decodeFrame Profile.resetP1 .sentinel 0 [0x60, 0x00, 0x05, 0x65, 0x03] = .ok [0x05]
      ∧ decodeFrame Profile.resetP1 .sentinel 0 [0x60, 0x00, 0x05, 0x64, 0x03] = .error .checksumMismatch
      ∧ frameComplete Profile.resetP1 .sentinel 0 [0x60, 0x00, 0x05, 0x65] = false
      ∧ (BitVec.ofNat 16 (Config.fbufDepth - 1) : Half).toNat + 1 = Config.fbufDepth := by
  have pb := pmax_bounds
  have fd := fbufDepth_eq
  refine ⟨⟨rfl, rfl, rfl, rfl⟩, rfl, by decide, by decide, by decide, by decide, by decide, ?_⟩
  rw [BitVec.toNat_ofNat, Nat.mod_eq_of_lt (by omega)]
  omega

/-- The smallest card, a buffer without the trailing sentinel, the terminator, the last byte of the buffer. -/
theorem witness_RawSwipe :
    bringsByte (brings 0x03) 0x03 (waiting 0x00000014 [0x3B, 0x3F] quiet)
      ∧ (waiting 0x00000014 [0x3B, 0x3F] quiet).pbufRx.wf = true
      ∧ (waiting 0x00000014 [0x3B, 0x3F] quiet).command = some .awaitSwipe
      ∧ (waiting 0x00000014 [0x3B, 0x3F] quiet).swipeFramed = false
      ∧ (waiting 0x00000014 [0x3B, 0x3F] quiet).flen.toNat = 2
      ∧ (waiting 0x00000014 [0x3B, 0x3F] quiet).fbuf.read 0 = 0x3B ∧ (waiting 0x00000014 [0x3B, 0x3F] quiet).fbuf.read 1 = 0x3F
      ∧ (waiting 0x00000014 [0x3B, 0x31] quiet).fbuf.read 1 ≠ 0x3F :=
  ⟨⟨rfl, rfl, rfl, rfl⟩, rfl, by decide, rfl, by decide, by decide, by decide, by decide⟩

theorem witness_FramedSwipe :
    bringsByte (brings 0x03) 0x03 { waiting 0x00000014 [0x60, 0x00, 0x3B, 0x3F, 0x64] quiet with swipeFramed := true }
      ∧ ({ waiting 0x00000014 [] quiet with swipeFramed := true } : State).command = some .awaitSwipe
      ∧ frameComplete Profile.resetP1 .sentinel 0 [0x60, 0x00, 0x3B, 0x3F, 0x64, 0x03] = true
      ∧ decodeFrame Profile.resetP1 .sentinel 0 [0x60, 0x00, 0x3B, 0x3F, 0x64, 0x03] = .ok [0x3B, 0x3F]
      ∧ decodeFrame Profile.resetP1 .sentinel 0 [0x60, 0x00, 0x31, 0x51, 0x03] = .ok [0x31] :=
  ⟨⟨rfl, rfl, rfl, rfl⟩, by decide, by decide, by decide, by decide⟩

/-- Of InventoryQueryStarts, AwaitButtonStarts and VendingChecksInOrder's passing side. -/
theorem witness_vending_starts :
    State.reset.fbuf.wf = true ∧ State.reset.p0.valid = true ∧ State.reset.replyTimeout ≠ 0
      ∧ encodeFrame Profile.resetP0 [0x53] = .ok [0x53] ∧ encodeFrame Profile.resetP0 [0x42] = .ok [0x42]
      ∧ encodeFrame Profile.resetP0 [0x56, 0x07] = .ok [0x56, 0x07] ∧ (7 : Byte).toNat ≤ 7
      ∧ 1 ≤ (1 : Byte).toNat ∧ (60 : Byte).toNat ≤ 60 := by decide

/-- An invalid P0; slot 8, 0 and 61 seconds, a zero timeout; and a P0 whose terminator is the letter S, B or V. -/
theorem witness_VendingChecksInOrder :
    (Profile.resetP0.setFrame 0x00000003).valid = false ∧ 7 < (8 : Byte).toNat ∧ 60 < (61 : Byte).toNat
      ∧ ({ State.reset with replyTimeout := 0 } : State).replyTimeout = 0 ∧ State.reset.replyTimeout ≠ 0
      ∧ (7 : Byte).toNat ≤ 7 ∧ 1 ≤ (1 : Byte).toNat ∧ (60 : Byte).toNat ≤ 60
      ∧ (Profile.resetP0.setFrame 0x53000008).valid = true
      ∧ encodeFrame (Profile.resetP0.setFrame 0x53000008) [0x53] = .error .termCollision
      ∧ (Profile.resetP0.setFrame 0x42000008).valid = true
      ∧ encodeFrame (Profile.resetP0.setFrame 0x42000008) [0x42] = .error .termCollision
      ∧ encodeFrame (Profile.resetP0.setFrame 0x56000008) [0x56, 0x00] = .error .termCollision
      ∧ encodeFrame (Profile.resetP0.setFrame 0x56000008) [0x53] = .ok [0x53, 0x56] := by decide

theorem witness_StripeCommandsIssue : State.reset.fbuf.wf = true := rfl

/-- In an instance with a template that P1 can send, READER_ENABLE's issue is the start of a frame. -/
theorem witness_StripeCommandsIssue_template (h : Config.stripeTemplate 0x10 0 = some [0x45]) (t : State)
    (ht : StripeIssue 0x10 0 State.reset t) :
    StartsSending [0x60, 0x00, 0x45, 0x25, 0x03] false (opened State.reset) t := by
  have e : encodeFrame Profile.resetP1 [0x45] = .ok [0x60, 0x00, 0x45, 0x25, 0x03] := by decide
  unfold StripeIssue at ht
  rw [if_neg (by decide), h] at ht
  dsimp only at ht
  rw [if_neg (by decide), show State.reset.p1 = Profile.resetP1 from rfl, e] at ht
  exact ht

/-- An accepting P1; one that is invalid, one without a terminator; and a zero timeout. -/
theorem witness_AwaitSwipeListens :
    State.reset.p1.valid = true ∧ State.reset.p1.termEn = true ∧ State.reset.replyTimeout ≠ 0
      ∧ (Profile.resetP1.setFrame 0x0300600F).valid = false
      ∧ (Profile.resetP1.setFrame 0x03006006).valid = true ∧ (Profile.resetP1.setFrame 0x03006006).termEn = false
      ∧ ({ State.reset with replyTimeout := 0 } : State).replyTimeout = 0 := by decide

theorem witness_ExchangeStarts :
    (loadTx [0x01]).fbuf.wf = true ∧ (loadTx [0x01]).p1.valid = true ∧ (loadTx [0x01]).replyTimeout ≠ 0
      ∧ (loadTx [0x01]).txlen.toNat ≤ Config.pmax ∧ Profile.resetP1.termEn = true ∧ (1 : Byte).toNat ≤ Config.pmax
      ∧ encodeFrame Profile.resetP1 ((loadTx [0x01]).pbufTx.load (loadTx [0x01]).txlen.toNat)
          = .ok [0x60, 0x00, 0x01, 0x61, 0x03]
      ∧ encodeFrame Profile.resetP0 ((loadTx [0x41]).pbufTx.load (loadTx [0x41]).txlen.toNat) = .ok [0x41]
      ∧ Profile.resetP0.termEn = false ∧ 0 < Profile.resetP0.header.length + (1 : Byte).toNat + Profile.resetP0.ckLen := by
  decide

/-- Each failing check of EXCHANGE. -/
theorem witness_ExchangeChecksInOrder :
    (Profile.resetP0.setFrame 0x00000003).valid = false ∧ Profile.resetP0.valid = true ∧ Profile.resetP0.termEn = false
      ∧ encodeFrame Profile.resetP1 ((loadTx [0x03]).pbufTx.load (loadTx [0x03]).txlen.toNat) = .error .termCollision
      ∧ encodeFrame Profile.resetP0 ((loadTx []).pbufTx.load (loadTx []).txlen.toNat) = .ok []
      ∧ Profile.resetP0.header.length + (0 : Byte).toNat + Profile.resetP0.ckLen = 0 := by decide

theorem witness_EncodeFillsFbuf :
    (loadTx [0x01]).fbuf.wf = true ∧ (loadTx [0x01]).txlen.toNat ≤ Config.pmax
      ∧ encodeFrame Profile.resetP1 ((loadTx [0x63]).pbufTx.load (loadTx [0x63]).txlen.toNat) = .error .termCollision := by
  decide

theorem witness_DecodeAnswersPayload : (loadF [0x60, 0x00, 0x01, 0x61, 0x03]).pbufRx.wf = true := rfl

end Sys2Proof.Tests
end

section
/-! SUPPORT. What issuing a command can do, and the bounds that keep a frame and a payload inside their buffers. -/

namespace Sys2Proof.Proofs

open Sys2Proof.Machine Sys2Proof.Safety Sys2Proof.Laws

/-! ## The length of a frame -/

theorem stuff_length_le (p : Profile) (bytes : List Byte) : (stuff p bytes).length ≤ 2 * bytes.length := by
  unfold stuff
  split
  · induction bytes with
    | nil => simp
    | cons b bs ih =>
      have := (stuffByte_length p b).2
      simp only [List.flatMap_cons, List.length_append, List.length_cons]
      omega
  · omega

/-- A frame of a payload within PMAX fits FBUF (40_codec.md R126, 00_scope.md R9). -/
theorem encodeFrame_length_le {p : Profile} {payload frame : List Byte} (h : encodeFrame p payload = .ok frame)
    (hp : payload.length ≤ Config.pmax) : frame.length ≤ Config.fbufDepth := by
  have hs := stuff_length_le p (payload ++ checkBytes p payload)
  have hh := header_length_le p
  have hc := ckLen_le p
  have ht := termLen_le p
  rw [(encodeFrame_ok h).1, fbufDepth_eq]
  simp only [List.length_append, checkBytes_length, termBytes_length] at hs ⊢
  omega

theorem templatePayload_length_le (op arg : Byte) : (templatePayload op arg).length ≤ Config.pmax := by
  unfold templatePayload Config.stripeTemplate
  cases Config.stripeTemplateSeed op arg <;> simp

/-- Every payload a command sends lies within PMAX. -/
theorem commandParams_payload_length_le (i : Instr) (ph : Bool) {s : State} (h : s.txlen.toNat ≤ Config.pmax) :
    (commandParams i ph s).payload.length ≤ Config.pmax := by
  have pb := pmax_bounds
  cases i with
  | vend slot => cases ph <;> simp [commandParams, vendParams, inventoryParams, vendPayload] <;> omega
  | exchange psel shape len => simpa [commandParams] using h
  | readerEnable arg => exact templatePayload_length_le _ _
  | readerDisable arg => exact templatePayload_length_le _ _
  | setLed colour => exact templatePayload_length_le _ _
  | setTracks sel => exact templatePayload_length_le _ _
  | _ => simp [commandParams, inventoryParams, noExchange] <;> omega

/-! ## The outcomes of an issue -/

theorem firstFailure_append_eq_none (a b : List (Bool × ErrCode)) :
    firstFailure (a ++ b) = none ↔ firstFailure a = none ∧ firstFailure b = none := by
  simp only [firstFailure_none, List.mem_append, or_imp, forall_and]

/-- Phase ph of a command has a frame to send. -/
def HasFrame (i : Instr) (ph : Bool) (s : State) : Prop :=
  ∃ frame, encodeFrame (commandParams i ph s).profile (commandParams i ph s).payload = .ok frame ∧ frame ≠ []

/-- An outcome a command may finish with: its class is not NONE, and a payload lies within PMAX and comes with OK or NEGATIVE only
(60_exceptions.md R250, R253). -/
def Reportable (cls : ResultClass) (payload : Option (List Byte)) : Prop :=
  cls ≠ .noResult ∧ ∀ bytes, payload = some bytes → bytes.length ≤ Config.pmax ∧ (cls = .ok ∨ cls = .negative)

theorem reportable_none {cls : ResultClass} (h : cls ≠ .noResult) : Reportable cls none := ⟨h, by simp⟩

theorem reportable_ok {bytes : List Byte} (h : bytes.length ≤ Config.pmax) : Reportable .ok (some bytes) :=
  ⟨by simp, by rintro _ ⟨⟩; exact ⟨h, .inl rfl⟩⟩

theorem reportable_negative {bytes : List Byte} (h : bytes.length ≤ Config.pmax) : Reportable .negative (some bytes) :=
  ⟨by simp, by rintro _ ⟨⟩; exact ⟨h, .inr rfl⟩⟩

/-- How a command leaves its issue cycle, from the state s with the old outcome cleared: finished, finished with a frame stored in FBUF
(ENCODE), sending its frame, or listening. -/
inductive Issued (i : Instr) (s : State) : State → Prop where
  | finished (cls : ResultClass) (err : ErrCode) (value : Byte) (payload : Option (List Byte))
      (h : Reportable cls payload) : Issued i s (finish (some i) cls err value payload s)
  | encoded (p : Profile) (value : Byte) (frame : List Byte) (h : encodeFrame p s.txPayload = .ok frame) :
      Issued i s (finish (some i) .ok .noError value none
        { s with fbuf := s.fbuf.store 0 frame, flen := BitVec.ofNat 16 frame.length })
  | sends (hi : i ≠ .awaitSwipe) (h : ready i s = true) (hf : HasFrame i false s) : Issued i s (startExchange i false s)
  | listens (hi : i = .awaitSwipe) (h : ready i s = true) : Issued i s (startListen s)

/-- A failing check ends a command; so an issue goes as its start goes when every check passes. -/
theorem issued_of_start {i : Instr} {checks : List (Bool × ErrCode)} {start : State → State} {s : State}
    (h : firstFailure checks = none → Issued i (opened s) (start (opened s))) : Issued i (opened s) (issue i checks start s) := by
  rcases issue_cases i checks start s with ⟨code, -, e⟩ | ⟨hc, e⟩ <;> rw [e]
  · exact .finished _ _ _ _ (reportable_none (by simp))
  · exact h hc

/-- A command whose last checks are its frame's sends that frame, once the checks before leave it ready. -/
theorem issued_of_frame {i : Instr} {pre : List (Bool × ErrCode)} {s : State} (hi : i ≠ .awaitSwipe)
    (hr : firstFailure pre = none → ready i (opened s) = true) :
    Issued i (opened s) (issue i
      (pre ++ checkFrame (commandParams i false (opened s)).profile (commandParams i false (opened s)).payload)
      (startExchange i false) s) := by
  refine issued_of_start fun hc => ?_
  rw [firstFailure_append_eq_none, checkFrame_none] at hc
  obtain ⟨hpre, hframe⟩ := hc
  exact .sends hi (hr hpre) hframe

/-- The checks of a stripe command before its frame's (43_stripe.md R230). -/
theorem stripe_checks {op arg : Byte} {s : State}
    (h : firstFailure [checkProfile s.p1, checkTemplate op arg, checkTimeout s] = none) :
    (s.p1.valid && s.replyTimeout != 0) = true := by
  simp [firstFailure_none, checkProfile, checkTimeout] at h
  simp [h]

/-- What issuing a command can do (41_exchange.md R163 to R168, 40_codec.md R140 to R143). -/
theorem exec_issued {i : Instr} {s t : State} (h : exec i s = .next t) : Issued i (opened s) t := by
  cases i with
  | queryInv =>
    cases h
    refine issued_of_frame (by simp) fun hc => ?_
    simp [firstFailure_none, checkProfile, checkTimeout] at hc
    simp [ready, opened, hc]
  | hasSoda slot =>
    cases h
    refine issued_of_frame (by simp) fun hc => ?_
    simp [firstFailure_none, checkProfile, checkSlot, checkTimeout] at hc
    simp [ready, opened, hc]
  | awaitButton secs =>
    cases h
    refine issued_of_frame (by simp) fun hc => ?_
    simp [firstFailure_none, checkProfile, checkSecs, checkTimeout] at hc
    obtain ⟨hvalid, ⟨hpos, hmax⟩, htimeout⟩ := hc
    simp [ready, opened, hvalid, hmax, htimeout]
    bv_omega
  | readerEnable arg => cases h; exact issued_of_frame (by simp) stripe_checks
  | readerDisable arg => cases h; exact issued_of_frame (by simp) stripe_checks
  | setLed colour => cases h; exact issued_of_frame (by simp) stripe_checks
  | setTracks sel => cases h; exact issued_of_frame (by simp) stripe_checks
  | vend slot =>
    cases h
    refine issued_of_start fun hc => ?_
    simp only [firstFailure_append_eq_none, checkFrame_none] at hc
    obtain ⟨⟨h1, hf⟩, vendFrame, hv, -⟩ := hc
    refine .sends (by simp) ?_ hf
    have hn : collides s.p0 (vendPayload slot (opened s)) = false := collides_eq_false.mpr ⟨vendFrame, hv⟩
    simp [firstFailure_none, checkProfile, checkSlot, checkTimeout] at h1
    simp [ready, opened, h1]
    exact hn
  | awaitSwipe =>
    cases h
    refine issued_of_start fun hc => .listens rfl ?_
    simpa [firstFailure_none, checkProfile, checkTimeout, ready, opened, and_assoc] using hc
  | exchange psel shape len =>
    cases h
    refine issued_of_start fun hc => ?_
    simp only [firstFailure_append_eq_none, checkFrame_none] at hc
    obtain ⟨⟨h1, hf⟩, hz⟩ := hc
    refine .sends (by simp) ?_ (by cases psel <;> exact hf)
    simp [firstFailure_none, checkProfile, checkTimeout] at h1 hz
    rw [ready_congr (s := s) (t := opened s) (.exchange psel shape len) rfl rfl rfl rfl]
    simp [ready, h1, hz]
  | encode psel =>
    cases h
    refine issued_of_start fun _ => ?_
    unfold encodeToFbuf
    split
    · rename_i frame hf
      exact .encoded _ _ frame hf
    · exact .finished _ _ _ _ (reportable_none (by simp))
  | decode psel shape len =>
    cases h
    refine issued_of_start fun _ => ?_
    unfold decodeFromFbuf
    split
    · rename_i payload hd
      exact .finished _ _ _ _ (reportable_ok (decodeFrame_ok hd).1)
    · exact .finished _ _ _ _ (reportable_none (by simp))
  | cksum psel =>
    cases h
    exact issued_of_start fun _ => .finished _ _ _ _ (reportable_none (by simp))

end Sys2Proof.Proofs
end

section
/-! SUPPORT. The invariant of a run holds after reset and is kept by every part of a cycle: the CTRL clears, the engine, the host access. -/

namespace Sys2Proof.Proofs

open Sys2Proof.Machine Sys2Proof.Safety Sys2Proof.Laws

/-! ## The clauses about storage -/

/-- The clauses of `RunInv` about the buffers, the lengths and the phase, which hold at any moment within a cycle. -/
structure Stored (s : State) : Prop where
  wf : s.pbufTx.wf = true ∧ s.pbufRx.wf = true ∧ s.fbuf.wf = true
  below : s.pbufTx.below Config.pmax = true ∧ s.pbufRx.below Config.pmax = true ∧ s.fbuf.below Config.fbufDepth = true
  lengths : s.txlen.toNat ≤ Config.pmax ∧ s.rxlen.toNat ≤ Config.pmax ∧ s.flen.toNat ≤ Config.fbufDepth
  phaseVend : s.phase = true → ∃ slot, s.command = some (.vend slot)

theorem stored_of_runInv {s : State} (h : RunInv s) : Stored s := ⟨h.wf, h.below, h.lengths, h.phaseVend⟩

/-- Accepting a command word clears RXLEN and the phase, and keeps everything else that is stored (41_exchange.md R163). -/
theorem Stored.accepted {s : State} (h : Stored s) (v : Word) : Stored (opened (latchCommand v s)) :=
  { h with lengths := ⟨h.lengths.1, Nat.zero_le _, h.lengths.2.2⟩, phaseVend := by rintro ⟨⟩ }

theorem Stored.clearFlen {s : State} (h : Stored s) : Stored { s with flen := 0 } :=
  { h with lengths := ⟨h.lengths.1, h.lengths.2.1, Nat.zero_le _⟩ }

/-- A frame within FBUF's depth is stored in it. -/
theorem Stored.storeFrame {s : State} (h : Stored s) {frame : List Byte} (hl : frame.length ≤ Config.fbufDepth) :
    Stored { s with fbuf := s.fbuf.store 0 frame, flen := BitVec.ofNat 16 frame.length } where
  wf := ⟨h.wf.1, h.wf.2.1, wf_store _ _ _ h.wf.2.2⟩
  below := ⟨h.below.1, h.below.2.1, below_store _ _ _ _ (by omega) h.below.2.2⟩
  lengths := ⟨h.lengths.1, h.lengths.2.1, by rw [BitVec.toNat_ofNat]; exact (Nat.mod_le _ _).trans hl⟩
  phaseVend := h.phaseVend

/-- A received byte is stored where FBUF has room for it. -/
theorem Stored.appendByte {s : State} (h : Stored s) (hroom : s.flen.toNat < Config.fbufDepth) (b : Byte) :
    Stored (appendByte b s) where
  wf := ⟨h.wf.1, h.wf.2.1, wf_write _ _ _ h.wf.2.2⟩
  below := ⟨h.below.1, h.below.2.1, below_write _ _ _ _ hroom h.below.2.2⟩
  lengths := ⟨h.lengths.1, h.lengths.2.1, by
    have := Nat.mod_le (s.flen.toNat + 1) (2 ^ 16)
    rw [appendByte_flen, BitVec.toNat_add]
    exact this.trans hroom⟩
  phaseVend := h.phaseVend

/-! ## The three kinds of state a command is in -/

/-- When nothing runs, the clauses of `RunInv` about storage and about the outcome are all of it. -/
theorem runInv_of_not_busy {s : State} (h : Stored s) (hb : s.busy = false)
    (hx : s.rxlen ≠ 0 → s.resClass = .ok ∨ s.resClass = .negative) (ho : s.done = true → s.resClass ≠ .noResult) :
    RunInv s where
  wf := h.wf
  below := h.below
  lengths := h.lengths
  phaseVend := h.phaseVend
  exposed := hx
  outcome := ho
  noOutcomeYet hbusy := by simp [hb] at hbusy
  deadline hbusy := by simp [hb] at hbusy
  running hbusy := by simp [hb] at hbusy
  sending hs := by simp [(busy_iff s).mpr (.inl hs)] at hb
  receiving hr := by simp [(busy_iff s).mpr (.inr hr)] at hb

/-- A finish keeps what is stored. -/
theorem Stored.finish {s : State} (h : Stored s) (c : Option Instr) (cls : ResultClass) (err : ErrCode) (value : Byte)
    {payload : Option (List Byte)} (hp : Reportable cls payload) : Stored (finish c cls err value payload s) := by
  cases payload with
  | none => exact { h with lengths := ⟨h.lengths.1, Nat.zero_le _, h.lengths.2.2⟩ }
  | some bytes =>
    have hl := (hp.2 bytes rfl).1
    exact {
      wf := ⟨h.wf.1, wf_store _ _ _ h.wf.2.1, h.wf.2.2⟩
      below := ⟨h.below.1, below_store _ _ _ _ (by omega) h.below.2.1, h.below.2.2⟩
      lengths := ⟨h.lengths.1, by
        rw [finish_some_rxlen, BitVec.toNat_ofNat]; exact (Nat.mod_le _ _).trans hl, h.lengths.2.2⟩
      phaseVend := h.phaseVend }

/-- A finished command satisfies the invariant, whatever ran before (60_exceptions.md R253, R256). -/
theorem runInv_finish {s : State} (h : Stored s) (c : Option Instr) (cls : ResultClass) (err : ErrCode) (value : Byte)
    {payload : Option (List Byte)} (hp : Reportable cls payload) : RunInv (finish c cls err value payload s) := by
  refine runInv_of_not_busy (h.finish c cls err value hp) (finish_not_busy _ _ _ _ _ _) (fun hx => ?_) (fun _ => hp.1)
  cases payload with
  | none => exact absurd rfl hx
  | some bytes => exact (hp.2 bytes rfl).2

/-- What holds of a command from its issue until it finishes, whatever phase it is in. -/
structure Underway (i : Instr) (s : State) : Prop where
  stored : Stored s
  command : s.command = some i
  ready : ready i s = true
  noOutcomeYet : s.done = false ∧ s.resClass = .noResult ∧ s.rxlen = 0

theorem underway_of_runInv {s : State} (h : RunInv s) (hb : s.busy = true) : ∃ i, Underway i s := by
  obtain ⟨i, hc, hr⟩ := h.running hb
  exact ⟨i, stored_of_runInv h, hc, hr, h.noOutcomeYet hb⟩

/-- The fields that a running command keeps, storage apart. -/
def kept (s : State) : Word × Profile × Profile × Half × Bool × Bool × ResultClass × Half :=
  (s.cmd, s.p0, s.p1, s.replyTimeout, s.slotAscii, s.done, s.resClass, s.rxlen)

theorem Underway.of_kept {i : Instr} {s t : State} (h : Underway i s) (ht : Stored t) (hk : kept t = kept s) : Underway i t := by
  simp only [kept, Prod.mk.injEq] at hk
  obtain ⟨hc, h0, h1, hr, ha, hd, hcls, hx⟩ := hk
  refine ⟨ht, ?_, ?_, ?_⟩
  · unfold State.command; rw [hc]; exact h.command
  · rw [ready_congr i h0 h1 hr ha]; exact h.ready
  · rw [hd, hcls, hx]; exact h.noOutcomeYet

/-- A command underway satisfies the invariant while its deadline runs and its next byte has its place. -/
theorem Underway.runInv {i : Instr} {s : State} (h : Underway i s) (hd : s.dlCnt ≠ 0)
    (hs : s.xstate = .commandSent → s.txIdx.toNat < s.flen.toNat ∧ i ≠ .awaitSwipe)
    (hr : s.xstate = .awaitingReply → s.flen.toNat < Config.fbufDepth) : RunInv s where
  wf := h.stored.wf
  below := h.stored.below
  lengths := h.stored.lengths
  phaseVend := h.stored.phaseVend
  exposed hx := absurd h.noOutcomeYet.2.2 hx
  outcome hdone := by simp [h.noOutcomeYet.1] at hdone
  noOutcomeYet _ := h.noOutcomeYet
  deadline _ := hd
  running _ := ⟨i, h.command, h.ready⟩
  sending hx := by rw [h.command]; simpa using hs hx
  receiving := hr

/-- A frame that is not empty starts to be sent with a full deadline and its first byte next (41_exchange.md R166). -/
theorem runInv_sendFrame {i : Instr} {s : State} (h : Underway i s) (hi : i ≠ .awaitSwipe) {ph : Bool}
    (hph : ph = true → ∃ slot, i = .vend slot) {frame : List Byte} (hl : frame.length ≤ Config.fbufDepth) (hn : frame ≠ []) :
    RunInv (sendFrame frame ph s) := by
  have pb := pmax_bounds
  have fd := fbufDepth_eq
  have hlen : (BitVec.ofNat 16 frame.length).toNat = frame.length := by
    rw [BitVec.toNat_ofNat]; exact Nat.mod_eq_of_lt (by omega)
  have hpos := List.length_pos_of_ne_nil hn
  refine (h.of_kept (t := sendFrame frame ph s) ?_ rfl).runInv (ready_timeout h.ready) (fun _ => ⟨?_, hi⟩) (by rintro ⟨⟩)
  · refine { h.stored.storeFrame hl with phaseVend := fun hp => ?_ }
    obtain ⟨slot, rfl⟩ := hph hp
    exact ⟨slot, h.command⟩
  · rw [sendFrame_flen, hlen]; exact hpos

theorem runInv_startExchange {i : Instr} {s : State} (h : Underway i s) (hi : i ≠ .awaitSwipe) {ph : Bool}
    (hph : ph = true → ∃ slot, i = .vend slot) (hf : HasFrame i ph s) : RunInv (startExchange i ph s) := by
  obtain ⟨frame, he, hn⟩ := hf
  unfold startExchange
  rw [frameOf_ok he]
  exact runInv_sendFrame h hi hph (encodeFrame_length_le he (commandParams_payload_length_le i ph h.stored.lengths.1)) hn

/-! ## Issuing a command -/

/-- A command in CMD is issued into a state that satisfies the invariant. -/
theorem runInv_exec {i : Instr} {s t : State} (ho : Stored (opened s)) (hc : s.command = some i) (h : exec i s = .next t) :
    RunInv t := by
  have under (hr : ready i (opened s) = true) : Underway i (opened s) := ⟨ho, hc, hr, rfl, rfl, rfl⟩
  cases exec_issued h with
  | finished cls err value payload hp => exact runInv_finish ho _ _ _ _ hp
  | encoded p value frame he =>
    refine runInv_finish (ho.storeFrame (encodeFrame_length_le he ?_)) _ _ _ _ (reportable_none (by simp))
    simpa using ho.lengths.1
  | sends hi hr hf => exact runInv_startExchange (under hr) hi (by simp) hf
  | listens hi hr =>
    have fd := fbufDepth_eq
    have hl : Stored (startListen (opened s)) := { ho.clearFlen with phaseVend := by rintro ⟨⟩ }
    exact ((under hr).of_kept hl rfl).runInv (ready_timeout hr) (by rintro ⟨⟩) (fun _ => by simp; omega)

/-! ## The engine -/

theorem runInv_dropRx {s : State} (h : RunInv s) (rx : Option Byte) : RunInv (dropRx rx s) := by
  cases rx with
  | none => exact h
  | some b => exact { h with }

/-- A wait deadline is 0 only where a settle delay of 0 was configured (41_exchange.md R164, R167, R176). -/
theorem wait_ne_zero {i : Instr} {s : State} (h : ready i s = true) (hz : ¬ (commandWaitMode i = .settle ∧ s.settle = 0))
    (ph : Bool) : (commandParams i ph s).wait ≠ 0 := by
  have ht := ready_timeout h
  cases i with
  | awaitButton secs =>
    simp [ready] at h
    obtain ⟨⟨-, h1⟩, h60⟩ := h
    intro e
    have := congrArg BitVec.toNat e
    simp [commandParams, buttonTicks] at this
    omega
  | vend slot => cases ph <;> exact ht
  | exchange psel shape len =>
    cases shape with
    | noReply => exact fun e => hz ⟨rfl, e⟩
    | _ => exact ht
  | readerEnable arg => exact fun e => hz ⟨rfl, e⟩
  | readerDisable arg => exact fun e => hz ⟨rfl, e⟩
  | setLed colour => exact fun e => hz ⟨rfl, e⟩
  | setTracks sel => exact fun e => hz ⟨rfl, e⟩
  | _ => exact ht

/-- The last byte sent: the command finishes at once, or waits with a deadline that is not 0 (41_exchange.md R176). -/
theorem runInv_txComplete {i : Instr} {s : State} (h : Underway i s) : RunInv (txComplete s) := by
  have hl := h.stored.clearFlen
  have fd := fbufDepth_eq
  unfold txComplete
  dsimp only
  split
  · exact runInv_finish hl _ _ _ _ (reportable_none (by simp))
  · rename_i hz
    rw [h.command] at hz ⊢
    exact Underway.runInv (h.of_kept { hl with } rfl) (wait_ne_zero h.ready hz s.phase) (by rintro ⟨⟩) (fun _ => by simp; omega)

theorem runInv_txPart {s : State} (h : RunInv s) (hx : s.xstate = .commandSent) (inp : Inputs) : RunInv (txPart inp s).1 := by
  obtain ⟨i, hu⟩ := underway_of_runInv h ((busy_iff s).mpr (.inl hx))
  obtain ⟨hidx, hi⟩ := h.sending hx
  rcases txPart_cases inp s with ⟨-, e⟩ | ⟨-, -, -, e⟩ | ⟨-, -, hne, e⟩ | ⟨-, -, e⟩ <;> rw [e]
  · exact runInv_finish hu.stored _ _ _ _ (reportable_none (by simp))
  · exact runInv_txComplete (hu.of_kept (t := { s with txIdx := s.txIdx + 1 }) { hu.stored with } rfl)
  · refine { h with sending := fun _ => ⟨?_, hi⟩ }
    have : s.txIdx.toNat + 1 ≠ s.flen.toNat := fun e => hne (by bv_omega)
    show (s.txIdx + 1).toNat < s.flen.toNat
    bv_omega
  · exact h

/-- The byte after the last one has room, unless the buffer is full with it. -/
theorem appendByte_room {s : State} (h : s.flen.toNat < Config.fbufDepth) (hn : s.flen.toNat + 1 ≠ Config.fbufDepth) (b : Byte) :
    (appendByte b s).flen.toNat < Config.fbufDepth := by
  have := Nat.mod_le (s.flen.toNat + 1) (2 ^ 16)
  rw [appendByte_flen, BitVec.toNat_add]
  exact Nat.lt_of_le_of_lt this (by omega)

theorem Underway.appendByte {i : Instr} {s : State} (h : Underway i s) (hroom : s.flen.toNat < Config.fbufDepth) (b : Byte) :
    Underway i (appendByte b s) :=
  h.of_kept (h.stored.appendByte hroom b) rfl

/-- A command goes on awaiting its reply while FBUF has room. -/
theorem runInv_await {i : Instr} {s : State} (h : Underway i s) (hx : s.xstate = .awaitingReply) (hd : s.dlCnt ≠ 0)
    (hr : s.flen.toNat < Config.fbufDepth) : RunInv s :=
  h.runInv hd (fun hs => by simp [hx] at hs) (fun _ => hr)

/-- The vend frame is not empty, and the issue checks found that it encodes (41_exchange.md R164, 42_vending.md R214). -/
theorem vend_hasFrame {slot : Byte} {s : State} (h : ready (.vend slot) s = true) : HasFrame (.vend slot) true s := by
  have hc : collides s.p0 (vendPayload slot s) = false := by simp [ready] at h; simp [h]
  obtain ⟨frame, he⟩ := collides_eq_false.mp hc
  exact ⟨frame, he, encodeFrame_ne_nil he (by simp [vendPayload])⟩

/-- A decoded reply finishes the command or sends the vend frame (41_exchange.md R181). -/
theorem runInv_interpret {i : Instr} {s : State} (h : Underway i s) {payload : List Byte} (hp : payload.length ≤ Config.pmax) :
    RunInv (interpret (some i) payload s) := by
  rcases interpret_cases (some i) payload s with ⟨value, e⟩ | ⟨value, -, e⟩ | ⟨slot, -, -, e⟩ | ⟨slot, bitmap, hc, -, -, -, e⟩ <;>
    rw [e]
  · exact runInv_finish h.stored _ _ _ _ (reportable_ok hp)
  · exact runInv_finish h.stored _ _ _ _ (reportable_none (by simp))
  · exact runInv_finish h.stored _ _ _ _ (reportable_negative hp)
  · obtain rfl := Option.some.inj hc
    exact runInv_startExchange h (by simp) (fun _ => ⟨slot, rfl⟩) (vend_hasFrame h.ready)

theorem runInv_rxByte {s : State} (h : RunInv s) (hx : s.xstate = .awaitingReply) (b : Byte) : RunInv (rxByte b s).1 := by
  have hb := (busy_iff s).mpr (.inr hx)
  obtain ⟨i, hu⟩ := underway_of_runInv h hb
  have hroom := h.receiving hx
  have ha := hu.appendByte hroom b
  unfold rxByte
  split
  · rcases replyByte_cases b s with ⟨payload, hd, e⟩ | ⟨code, e, -⟩ | ⟨hn, e⟩ <;> rw [e]
    · rw [hu.command]; exact runInv_interpret ha (decodeFrame_ok hd).1
    · exact runInv_finish ha.stored _ _ _ _ (reportable_none (by simp))
    · exact runInv_await ha hx (h.deadline hb) (appendByte_room hroom hn b)
  · exact runInv_dropRx h (some b)
  · rcases swipeByte_cases b s with ⟨card, hc, e⟩ | e | ⟨hn, e⟩ <;> rw [e]
    · simp only [cardOk, Bool.and_eq_true, decide_eq_true_eq] at hc
      obtain ⟨⟨⟨-, hlen⟩, -⟩, -⟩ := hc
      exact runInv_finish ha.stored _ _ _ _ (reportable_ok hlen)
    · have fd := fbufDepth_eq
      have hs : Stored (discardSwipe (appendByte b s)) := { ha.stored.clearFlen with }
      exact runInv_await (ha.of_kept hs rfl) hx (h.deadline hb) (by simp; omega)
    · exact runInv_await ha hx (h.deadline hb) (appendByte_room hroom hn b)

theorem runInv_enginePart {s : State} (h : RunInv s) (inp : Inputs) : RunInv (enginePart inp s).1 := by
  unfold enginePart
  split
  next hx => exact runInv_dropRx (runInv_txPart h hx inp) inp.rx
  next hx =>
    split
    · exact runInv_rxByte h hx _
    · exact h
  all_goals exact runInv_dropRx h inp.rx

theorem runInv_countTick {s : State} (h : RunInv s) : RunInv (countTick s) := by
  rcases countTick_cases s with ⟨hlt, e⟩ | ⟨-, e⟩ <;> rw [e]
  · exact { h with deadline := fun _ => by show s.dlCnt - 1 ≠ 0; bv_omega }
  · have hs : Stored { s with dlCnt := 0 } := { stored_of_runInv h with }
    rcases expire_cases { s with dlCnt := 0 } with ⟨hb, e⟩ | ⟨-, e⟩ | ⟨-, -, e⟩ | ⟨-, -, e⟩ <;> rw [e]
    · exact runInv_of_not_busy hs hb h.exposed h.outcome
    all_goals exact runInv_finish hs _ _ _ _ (reportable_none (by simp))

theorem runInv_engineCycle {s : State} (h : RunInv s) (inp : Inputs) : RunInv (engineCycle inp s) := by
  unfold engineCycle
  split
  · exact runInv_countTick (runInv_enginePart h inp)
  · exact runInv_enginePart h inp

/-! ## The host's part -/

theorem runInv_ctrlClears {s : State} (h : RunInv s) (bus : BusAccess) : RunInv (ctrlClears bus s) := by
  obtain ⟨keepDone, keepFlags, e⟩ := ctrlClears_cases bus s
  rw [e]
  refine { h with outcome := fun hd => h.outcome ?_, noOutcomeYet := fun hb => ⟨?_, (h.noOutcomeYet hb).2⟩ }
  · simp only [Bool.and_eq_true] at hd; exact hd.1
  · simp [(h.noOutcomeYet hb).1]

/-- CTRL shortens the lengths, FLEN only where nothing runs (10_state.md R32). -/
theorem runInv_ctrlLengths {busy : Bool} {s : State} (h : RunInv s) (hb : busy = false → s.busy = false) (v : Word) :
    RunInv (ctrlLengths busy v s) := by
  have le (c : Bool) (n : Half) : (if c then 0 else n : Half).toNat ≤ n.toNat := by cases c <;> simp
  have hlen : (if v.getLsbD 3 then 0 else s.txlen : Half).toNat ≤ Config.pmax
      ∧ s.rxlen.toNat ≤ Config.pmax ∧ (if v.getLsbD 2 && !busy then 0 else s.flen : Half).toNat ≤ Config.fbufDepth :=
    ⟨(le _ _).trans h.lengths.1, h.lengths.2.1, (le _ _).trans h.lengths.2.2⟩
  rw [ctrlLengths_eq]
  cases busy with
  | false => exact runInv_of_not_busy { stored_of_runInv h with lengths := hlen } (hb rfl) h.exposed h.outcome
  | true => simp only [Bool.not_true, Bool.and_false, Bool.false_eq_true, if_false] at hlen ⊢; exact { h with lengths := hlen }

/-- The host's access keeps the invariant, when the machine it finds not busy is still so after the engine. -/
theorem runInv_hostAccess {busy : Bool} {bus : BusAccess} {s t : State} (h : RunInv s) (hb : busy = false → s.busy = false)
    (ha : hostAccess busy bus s = .next t) : RunInv t := by
  have idle (hf : busy = false) {u : State} (hu : Stored u) (hx : u.busy = s.busy) (hr : u.rxlen = s.rxlen)
      (hc : u.resClass = s.resClass) (hd : u.done = s.done) : RunInv u :=
    runInv_of_not_busy hu (hx.trans (hb hf)) (by rw [hr, hc]; exact h.exposed) (by rw [hd, hc]; exact h.outcome)
  have hs := stored_of_runInv h
  rcases hostAccess_cases ha with rfl | rfl | rfl | ⟨-, rfl⟩ | ⟨v, rfl⟩ | ⟨n, hn, rfl⟩ | ⟨i, b, hi, rfl⟩ | ⟨hf, n, hn, rfl⟩
    | ⟨hf, i, b, hi, rfl⟩ | ⟨hf, x, rfl⟩ | ⟨hf, v, i, hv, he⟩ | ⟨hf, v, e, -, rfl⟩
  · exact h
  · exact { h with }
  · exact { h with }
  · exact { h with }
  · exact runInv_ctrlLengths h hb v
  · exact { h with lengths := ⟨hn, h.lengths.2⟩ }
  · exact { h with
      wf := ⟨wf_write _ _ _ h.wf.1, h.wf.2⟩
      below := ⟨below_write _ _ _ _ hi h.below.1, h.below.2⟩ }
  · exact idle hf { hs with lengths := ⟨h.lengths.1, h.lengths.2.1, hn⟩ } rfl rfl rfl rfl
  · exact idle hf { hs with
      wf := ⟨h.wf.1, h.wf.2.1, wf_write _ _ _ h.wf.2.2⟩
      below := ⟨h.below.1, h.below.2.1, below_write _ _ _ _ hi h.below.2.2⟩ } rfl rfl rfl rfl
  · exact idle hf { hs with } rfl rfl rfl rfl
  · exact runInv_exec (hs.accepted v) (by simp [State.command, commandOf, hv]) he
  · exact runInv_finish (hs.accepted v) _ _ _ _ (reportable_none (by simp))

/-! ## The cycle -/

/-- The reset state is idle, its buffers are empty and its lengths are 0. -/
theorem runInv_reset : RunInv State.reset :=
  runInv_of_not_busy
    ⟨⟨rfl, rfl, rfl⟩, ⟨rfl, rfl, rfl⟩, ⟨Nat.zero_le _, Nat.zero_le _, Nat.zero_le _⟩, by rintro ⟨⟩⟩ rfl
    (fun h => absurd rfl h) (by rintro ⟨⟩)

/-- A reset cycle leaves the reset state, but for the model's own fields. -/
theorem runInv_resetCycle (inp : Inputs) (s : State) : RunInv (resetCycle inp s) := { runInv_reset with }

/-- The CTRL clears do not touch STATUS.STATE, so BUSY stays. -/
theorem ctrlClears_busy (bus : BusAccess) (s : State) : (ctrlClears bus s).busy = s.busy := by
  obtain ⟨keepDone, keepFlags, e⟩ := ctrlClears_cases bus s
  rw [e]; rfl

theorem runInv_clockCycle {inp : Inputs} {s t : State} (h : RunInv s) (hc : clockCycle inp s = .next t) : RunInv t := by
  rcases clockCycle_cases hc with ⟨-, rfl⟩ | ⟨-, ha⟩
  · exact runInv_resetCycle inp s
  · have h1 : RunInv (begun inp s) := { h with }
    refine runInv_hostAccess (runInv_engineCycle (runInv_ctrlClears h1 inp.bus) inp) (fun hb => ?_) ha
    have hn : (ctrlClears inp.bus (begun inp s)).busy = false := by rw [ctrlClears_busy]; exact hb
    rw [engineCycle_not_busy _ _ hn, dropRx_busy, hn]

/-- Settles O29: every part of a cycle keeps the invariant. -/
theorem stepKeepsInv : Obligations.StepKeepsInv := fun _ _ h hs => runInv_clockCycle h hs

/-- Settles O28, by the reset values of the fields that the invariant reads. -/
theorem invHoldsAtReset : Obligations.InvHoldsAtReset := runInv_reset

end Sys2Proof.Proofs
end

section
/-! SUPPORT. The registers as numbers: what each reads as, what a write reads back as; the outputs of a cycle, and reset. -/

namespace Sys2Proof.Proofs

open Sys2Proof.Machine Sys2Proof.Safety Sys2Proof.Laws

/-! ## The outputs of a cycle -/

/-- Issuing a command does not touch the recorded outputs. -/
theorem exec_out {i : Instr} {s t : State} (h : exec i s = .next t) : t.out = s.out := by
  cases exec_issued h <;> rfl

theorem hostAccess_out {busy : Bool} {bus : BusAccess} {s t : State} (h : hostAccess busy bus s = .next t) : t.out = s.out := by
  rcases hostAccess_cases h with rfl | rfl | rfl | ⟨-, rfl⟩ | ⟨v, rfl⟩ | ⟨n, -, rfl⟩ | ⟨i, b, -, rfl⟩ | ⟨-, n, -, rfl⟩
    | ⟨-, i, b, -, rfl⟩ | ⟨-, x, rfl⟩ | ⟨-, v, i, -, he⟩ | ⟨-, v, e, -, rfl⟩
  any_goals rfl
  · rw [ctrlLengths_eq]
  · exact (exec_out he).trans rfl

/-- The outputs a cycle records are those of the state it starts in (10_state.md R25). -/
theorem clockCycle_out {inp : Inputs} {s t : State} (h : clockCycle inp s = .next t) : t.out = outputs inp s := by
  rcases clockCycle_cases h with ⟨-, rfl⟩ | ⟨-, ha⟩
  · rfl
  · obtain ⟨keepDone, keepFlags, e⟩ := ctrlClears_cases inp.bus (begun inp s)
    rw [hostAccess_out ha, (engineCycle_keeps _ _).2.2, e]; rfl

theorem txValid_iff (s : State) : s.txValid = true ↔ s.xstate = .commandSent := by simp [State.txValid]

/-- Without reset a byte passes to the UART exactly when it is offered, taken and without error (10_state.md R25). -/
theorem sentByte_eq {inp : Inputs} (hr : inp.rst = false) (s : State) :
    sentByte inp s = if s.xstate = .commandSent ∧ inp.txReady = true ∧ inp.txErr = false then some s.txByte else none := by
  simp [sentByte, txValid_iff, hr, and_assoc]

/-- Settles O16, by the outputs that every cycle records. -/
theorem outputsOfStartState : Obligations.OutputsOfStartState := by
  intro s t inp h
  rw [clockCycle_out h]
  refine ⟨?_, ?_, rfl, fun a ha => ?_, fun hr => ?_⟩
  · show s.txValid = _
    rw [Bool.eq_iff_iff, txValid_iff, decide_eq_true_iff]
  · simp only [outputs, State.txByte, txValid_iff]
  · simp only [outputs, readData, ha]
  · show (sentByte inp s = some s.txByte ↔ _) ∧ (sentByte inp s = none ↔ _)
    rw [sentByte_eq hr]
    split <;> simp_all

/-! ## Reset -/

theorem reset_words : State.reset.resultWord = 0x00000000 ∧ State.reset.cfgWord = 0x00000000 := by decide

/-- The words of P0 after reset (10_state.md R37). -/
theorem resetP0_words : Profile.resetP0.frameWord = 0x00000000 ∧ Profile.resetP0.codeWord = 0x00201000 := by decide

/-- The words of P1 after reset (10_state.md R38). -/
theorem resetP1_words : Profile.resetP1.frameWord = 0x0300600E ∧ Profile.resetP1.codeWord = 0x00201060 := by decide

/-- Settles O15, by the reset values of 10_state.md R52, which a reset cycle takes over. -/
theorem resetValues : Obligations.ResetValues := by
  intro s inp hr
  exact ⟨resetCycle inp s, by simp [clockCycle, hr],
    rfl, rfl, rfl,
    rfl, rfl, rfl, rfl,
    rfl, reset_words.1, reset_words.2,
    rfl, rfl,
    rfl, rfl, rfl, rfl, rfl, rfl,
    resetP0_words.1, resetP0_words.2,
    resetP1_words.1, resetP1_words.2,
    fun _ => ⟨rfl, rfl, rfl⟩,
    rfl, rfl, rfl⟩

/-! ## Reads as numbers -/

/-- The two depths fit in CAPS's halves. -/
theorem depths_lt : Config.pmax < 2 ^ 16 ∧ Config.fbufDepth < 2 ^ 16 := by
  have pb := pmax_bounds
  have fd := fbufDepth_eq
  omega

/-- Settles O18, by the bounds of PMAX and FBUF_DEPTH. -/
theorem idAndCapsAreConstant : Obligations.IdAndCapsAreConstant := by
  refine ⟨fun s => rfl, fun s => ?_, pmax_bounds.1, pmax_bounds.2, rfl⟩
  have hn : (busRead s 0x004).toNat = Config.fbufDepth * 2 ^ 16 + Config.pmax := by
    show (BitVec.ofNat 16 Config.fbufDepth ++ BitVec.ofNat 16 Config.pmax).toNat = _
    rw [append_toNat, BitVec.toNat_ofNat, BitVec.toNat_ofNat, Nat.mod_eq_of_lt depths_lt.1, Nat.mod_eq_of_lt depths_lt.2]
  have hd := depths_lt
  constructor
  · rw [BitVec.extractLsb'_toNat, hn]; omega
  · rw [BitVec.extractLsb'_toNat, hn, Nat.shiftRight_eq_div_pow]; omega

/-- One flag's share of a register. -/
theorem flag_share (b : Bool) (k : Nat) : (if b then k else 0) = k * b.toNat := by cases b <;> simp

theorem busy_share (s : State) (k : Nat) :
    (if s.xstate = .commandSent ∨ s.xstate = .awaitingReply then k else 0) = k * s.busy.toNat := by
  simp only [← busy_iff, flag_share]

/-- STATUS as a number (10_state.md R29). -/
theorem statusWord_toNat (s : State) :
    s.statusWord.toNat = (XState.code s.xstate).toNat + 8 * s.busy.toNat + 16 * s.done.toNat + 32 * s.phase.toNat
      + 256 * s.rxDrop.toNat + 512 * s.cmdRej.toNat + 1024 * s.busErr.toNat + 2048 * s.wrRej.toNat := by
  simp only [State.statusWord, append_toNat, BitVec.toNat_ofBool, BitVec.toNat_ofNat]
  omega

/-- RESULT as a number (10_state.md R34). -/
theorem resultWord_toNat (s : State) :
    s.resultWord.toNat = (ResultClass.code s.resClass).toNat + 256 * (ErrCode.code s.resErr).toNat + 65536 * s.resValue.toNat := by
  simp only [State.resultWord, append_toNat, BitVec.toNat_ofNat]
  omega

/-- CFG as a number (10_state.md R35). -/
theorem cfgWord_toNat (s : State) : s.cfgWord.toNat = s.ie.toNat + 2 * s.swipeFramed.toNat + 4 * s.slotAscii.toNat := by
  simp only [State.cfgWord, append_toNat, BitVec.toNat_ofBool, BitVec.toNat_ofNat]
  omega

/-- Pn_FRAME as a number (10_state.md R36). -/
theorem frameWord_toNat (p : Profile) :
    p.frameWord.toNat = p.hdrLen.toNat + 4 * p.ckEn.toNat + 8 * p.termEn.toNat + 16 * p.escEn.toNat + 256 * p.hdr0.toNat
      + 65536 * p.hdr1.toNat + 16777216 * p.term.toNat := by
  simp only [Profile.frameWord, append_toNat, BitVec.toNat_ofBool, BitVec.toNat_ofNat]
  omega

/-- Pn_CODE as a number (10_state.md R36). -/
theorem codeWord_toNat (p : Profile) : p.codeWord.toNat = p.seed.toNat + 256 * p.esc.toNat + 65536 * p.mask.toNat := by
  simp only [Profile.codeWord, append_toNat, BitVec.toNat_ofNat]
  omega

/-- A 16-bit register reads as its number. -/
theorem half_toNat (n : Half) : (n.setWidth 32).toNat = n.toNat := by
  rw [BitVec.toNat_setWidth]; exact Nat.mod_eq_of_lt (by omega)

/-- Settles O20, by the number of each register's word. -/
theorem statusAndResultWords : Obligations.StatusAndResultWords := by
  intro s
  refine ⟨?_, ?_, rfl, half_toNat _, half_toNat _, half_toNat _, half_toNat _, half_toNat _, half_toNat _, half_toNat _,
    half_toNat _, ?_, ?_⟩
  · rw [show busRead s 0x008 = s.statusWord from rfl, statusWord_toNat]
    simp only [busy_share, flag_share]
    cases s.xstate <;> rfl
  · rw [show busRead s 0x014 = s.resultWord from rfl, resultWord_toNat]
    congr 2
    · cases s.resClass <;> rfl
    · cases s.resErr <;> rfl
  · rw [show busRead s 0x018 = s.cfgWord from rfl, cfgWord_toNat]
    simp only [flag_share, Nat.one_mul]
  · simp only [flag_share]
    exact ⟨frameWord_toNat s.p0, codeWord_toNat s.p0, frameWord_toNat s.p1, codeWord_toNat s.p1⟩

/-! ## What a write reads back as -/

/-- The low n bits of a word, stored and read back. -/
theorem setWidth_extract_low (v : Word) (n : Nat) : (v.extractLsb' 0 n).setWidth 32 = v &&& BitVec.ofNat 32 (2 ^ n - 1) := by
  apply BitVec.eq_of_getLsbD_eq
  intro i hi
  simp only [BitVec.getLsbD_setWidth, BitVec.getLsbD_extractLsb', BitVec.getLsbD_and, BitVec.getLsbD_ofNat,
    Nat.testBit_two_pow_sub_one, hi, decide_true, Bool.true_and, Nat.zero_add, Bool.and_comm]

theorem cfgWord_setCfg (v : Word) (s : State) : (setCfg v s).cfgWord = v &&& 0x00000007 := by
  apply BitVec.eq_of_getLsbD_eq
  intro i hi
  simp only [State.cfgWord, setCfg, BitVec.getLsbD_append]
  interval_cases i <;> simp

theorem frameWord_setFrame (v : Word) (p : Profile) : (p.setFrame v).frameWord = v &&& 0xFFFFFF1F := by
  apply BitVec.eq_of_getLsbD_eq
  intro i hi
  simp only [Profile.frameWord, Profile.setFrame, BitVec.getLsbD_append]
  interval_cases i <;> simp

theorem codeWord_setCode (v : Word) (p : Profile) : (p.setCode v).codeWord = v &&& 0x00FFFFFF := by
  apply BitVec.eq_of_getLsbD_eq
  intro i hi
  simp only [Profile.codeWord, Profile.setCode, BitVec.getLsbD_append]
  interval_cases i <;> simp
/-- A cycle without a host access is the engine's. -/
theorem clockCycle_idle {inp : Inputs} {s : State} (hr : inp.rst = false) :
    clockCycle { inp with bus := .idle } s = .next (engineCycle inp (begun { inp with bus := .idle } s)) := by
  simp only [clockCycle, hr, Bool.false_eq_true, if_false, ctrlClears_of_not_ctrl .idle _ (by rintro v ⟨⟩), hostAccess]
  rfl

/-- A cycle with a write, but not to CTRL, on a machine that is not busy: a received byte is dropped, then the target is written. -/
theorem clockCycle_write_idle {inp : Inputs} {s t : State} {a : Half} {v : Word} {target : Target} (hr : inp.rst = false)
    (hb : s.busy = false) (ha : targetOf a = some target) (hc : a ≠ 0x00C)
    (h : clockCycle { inp with bus := .write a v } s = .next t) :
    writeTarget false target v (dropRx inp.rx (begun { inp with bus := .idle } s)) = .next t := by
  have hi : clockCycle { inp with bus := .idle } s = .next (dropRx inp.rx (begun { inp with bus := .idle } s)) :=
    (clockCycle_idle hr).trans (congrArg _ (engineCycle_not_busy _ _ hb))
  have := clockCycle_write hr hc h hi
  simpa only [hostAccess, ha, hb] using this

theorem dropRx_buffers (rx : Option Byte) (s : State) : (dropRx rx s).pbufTx = s.pbufTx ∧ (dropRx rx s).fbuf = s.fbuf := by
  cases rx <;> exact ⟨rfl, rfl⟩

/-- CMD reads back every bit of the word written, whether the command starts, finishes or has a reserved OP (10_state.md R33). -/
theorem cmdWrite_cmd {v : Word} {s t : State} (h : cmdWrite false v s = .next t) : t.cmd = v := by
  unfold cmdWrite at h
  simp only [Bool.false_eq_true, if_false] at h
  split at h
  · exact exec_cmd h
  · cases h; rfl

/-- Settles O23, by what each target stores. -/
theorem writeReadsBack : Obligations.WriteReadsBack := by
  intro s t inp a v hr hb htx hf h
  obtain ⟨(etx : _ = s.pbufTx), (ef : _ = s.fbuf)⟩ := dropRx_buffers inp.rx (begun { inp with bus := .idle } s)
  have key {target : Target} (ha : targetOf a = some target) (hc : a ≠ 0x00C) := clockCycle_write_idle hr hb ha hc h
  refine ⟨?_, ?_, ?_, ?_, ?_⟩
  · simp only [List.forall_mem_cons, List.not_mem_nil, false_imp_iff, implies_true, and_true]
    refine ⟨?_, ?_, ?_, ?_, ?_, ?_, ?_, ?_⟩ <;> rintro rfl
    · rw [busRead_of (target := .cmd) rfl]
      exact (cmdWrite_cmd (key rfl (by decide))).trans (BitVec.and_allOnes (x := v)).symm
    · cases key rfl (by decide); exact cfgWord_setCfg _ _
    · cases key rfl (by decide); exact setWidth_extract_low v 16
    · cases key rfl (by decide); exact setWidth_extract_low v 16
    · cases key rfl (by decide); exact frameWord_setFrame _ _
    · cases key rfl (by decide); exact codeWord_setCode _ _
    · cases key rfl (by decide); exact frameWord_setFrame _ _
    · cases key rfl (by decide); exact codeWord_setCode _ _
  · rintro rfl hn
    have e := key (target := .txlen) rfl (by decide)
    simp only [writeTarget, writeTxlen, if_neg (Nat.not_lt.mpr hn)] at e
    cases e; exact setWidth_extract_low v 16
  · rintro rfl hn
    have e := key (target := .flen) rfl (by decide)
    simp only [writeTarget, unlessBusy, Bool.false_eq_true, writeFlen, if_false, if_neg (Nat.not_lt.mpr hn)] at e
    cases e; exact setWidth_extract_low v 16
  · intro i hi ha
    have ht := targetOf_pbufTx hi ha
    cases key ht (by rintro rfl; cases ht)
    rw [busRead_of ht]
    simp only [readTarget, etx]
    rw [read_write_same _ _ _ htx]
    exact setWidth_extract_low v 8
  · intro i hi ha
    have ht := targetOf_fbuf hi ha
    cases key ht (by rintro rfl; cases ht)
    rw [busRead_of ht]
    simp only [readTarget, unlessBusy, Bool.false_eq_true, if_false, ef]
    rw [read_write_same _ _ _ hf]
    exact setWidth_extract_low v 8

end Sys2Proof.Proofs
end

section
/-! SUPPORT. CTRL's actions against the cycle without them, and exactly which events set each sticky flag. -/

namespace Sys2Proof.Proofs

open Sys2Proof.Machine Sys2Proof.Safety Sys2Proof.Laws

/-! ## CTRL -/

/-- A cycle that writes CTRL: DONE and the sticky flags are cleared, the engine runs, then the lengths are cleared (10_state.md R32). -/
theorem clockCycle_ctrl {inp : Inputs} (hr : inp.rst = false) (s : State) (v : Word) :
    clockCycle { inp with bus := .write 0x00C v } s = .next (ctrlLengths s.busy v (engineCycle inp
      (withFlags (s.done && !v.getLsbD 0) (s.rxDrop && !v.getLsbD 1) (s.cmdRej && !v.getLsbD 1) (s.busErr && !v.getLsbD 1)
        (s.wrRej && !v.getLsbD 1) (if v.getLsbD 1 then 0 else s.swipeDisc) (begun { inp with bus := .idle } s)))) := by
  simp only [clockCycle, hr, Bool.false_eq_true, if_false, ctrlClears_ctrl, hostAccess,
    (targetOf_ctrl 0x00C).mpr rfl, writeTarget]
  rfl

/-- The engine sets DONE on a busy machine only. -/
theorem engineCycle_done (inp : Inputs) (s : State) : ∃ fin, (s.busy = false → fin = false)
    ∧ ∀ d r c b w n, engineCycle inp (withFlags d r c b w n s)
      = withFlags (d || fin) (r || byteDropped inp s) c b w (if swipeDiscarded inp s then countDiscard n else n)
          (engineCycle inp s) := by
  obtain ⟨fin, h⟩ := engineCycle_flags inp s
  refine ⟨fin, fun hb => ?_, h⟩
  have hd := congrArg State.done (h false s.rxDrop s.cmdRej s.busErr s.wrRej s.swipeDisc)
  rw [engineCycle_not_busy _ _ (show (withFlags false _ _ _ _ _ s).busy = false from hb)] at hd
  have drop (t : State) : (dropRx inp.rx t).done = t.done := by cases inp.rx <;> rfl
  rw [drop] at hd
  simpa [withFlags] using hd.symm

/-- The state u that a cycle without a host access ends in, as the same cycle with a write of v to CTRL leaves it. -/
def ctrlled (v : Word) (inp : Inputs) (s u : State) : State :=
  { u with
    done := u.done && (s.busy || !v.getLsbD 0)
    rxDrop := if v.getLsbD 1 then byteDropped inp s else u.rxDrop
    cmdRej := u.cmdRej && !v.getLsbD 1
    busErr := u.busErr && !v.getLsbD 1
    wrRej := (u.wrRej && !v.getLsbD 1) || (s.busy && v.getLsbD 2)
    swipeDisc := if v.getLsbD 1 then (if swipeDiscarded inp s then 1 else 0) else u.swipeDisc
    flen := if v.getLsbD 2 && !s.busy then 0 else u.flen
    txlen := if v.getLsbD 3 then 0 else u.txlen }

/-- A write of CTRL against the cycle without it: the engine reads none of the flags, so clearing them first and clearing them
afterwards differ in what the cycle itself sets alone. -/
theorem clockCycle_ctrl_eq {inp : Inputs} (hr : inp.rst = false) {s : State} (hdone : s.busy = true → s.done = false) (v : Word) :
    clockCycle { inp with bus := .write 0x00C v } s
      = .next (ctrlled v inp s (engineCycle inp (begun { inp with bus := .idle } s))) := by
  obtain ⟨fin, hidle, e⟩ := engineCycle_done inp (begun { inp with bus := .idle } s)
  have e0 : engineCycle inp (begun { inp with bus := .idle } s) = withFlags (s.done || fin) (s.rxDrop || byteDropped inp s)
      s.cmdRej s.busErr s.wrRej (if swipeDiscarded inp s then countDiscard s.swipeDisc else s.swipeDisc)
      (engineCycle inp (begun { inp with bus := .idle } s)) := e s.done s.rxDrop s.cmdRej s.busErr s.wrRej s.swipeDisc
  have hdrop : byteDropped inp (begun { inp with bus := .idle } s) = byteDropped inp s := rfl
  have hdisc : swipeDiscarded inp (begun { inp with bus := .idle } s) = swipeDiscarded inp s := rfl
  have hd : (s.done && !v.getLsbD 0 || fin) = ((s.done || fin) && (s.busy || !v.getLsbD 0)) := by
    cases hb : s.busy with
    | true => simp [hdone hb]
    | false => simp [hidle hb]
  rw [clockCycle_ctrl hr, e, ctrlLengths_eq, e0]
  generalize engineCycle inp (begun { inp with bus := .idle } s) = u
  simp only [withFlags, ctrlled, hd, hdrop, hdisc, Host.Outcome.next.injEq, State.mk.injEq, true_and, and_true]
  refine ⟨?_, ?_, ?_⟩
  · cases v.getLsbD 1 <;> simp
  · rw [Bool.and_comm s.busy]
  · cases v.getLsbD 1 <;> simp [countDiscard]

/-- Settles O24: CTRL's clears come before the engine, its length actions after it, and the engine does not read what they clear. -/
theorem ctrlActions : Obligations.CtrlActions := by
  constructor
  · rintro s ⟨rst, bus, rx, txReady, txErr, tick⟩ v hr hb rfl rfl
    refine (clockCycle_ctrl_eq hr (s := s) (by simp [hb]) v).trans ?_
    rw [engineCycle_not_busy _ _ (show (begun _ s).busy = false from hb)]
    simp [ctrlled, hb, byteDropped, swipeDiscarded, dropRx, begun, outputs, readData, sentByte, Bool.and_comm]
  · intro s t u inp v hr hdone ht hu
    obtain rfl := Host.Outcome.next.inj ((clockCycle_idle hr).symm.trans hu)
    exact (Host.Outcome.next.inj ((clockCycle_ctrl_eq hr hdone v).symm.trans ht)).symm

/-! ## The sticky flags -/

/-- A register other than a buffer entry is named by its own address alone. -/
theorem targetOf_iff {a k : Half} {target : Target} (hk : targetOf k = some target)
    (hb : ∀ i, target ≠ .pbufTx i ∧ target ≠ .pbufRx i ∧ target ≠ .fbuf i)
    (hm : ∀ row ∈ registerMap, row.2 = target → row.1 = k.toNat) : targetOf a = some target ↔ a = k :=
  ⟨fun h => BitVec.eq_of_toNat_eq (hm _ (targetOf_register h hb) rfl), fun h => by rw [h, hk]⟩

theorem targetOf_txlen (a : Half) : targetOf a = some .txlen ↔ a = 0x024 := targetOf_iff rfl (by simp) (by decide)

theorem targetOf_flen (a : Half) : targetOf a = some .flen ↔ a = 0x02C := targetOf_iff rfl (by simp) (by decide)

/-- A write of v to a target is refused, judged against BUSY at the start of its cycle (20_memory.md R77). -/
def targetRefuses (busy : Bool) (v : Word) : Target → Bool
  | .ctrl => busy && v.getLsbD 2
  | .txlen => decide (Config.pmax < (v.extractLsb' 0 16).toNat)
  | .flen => busy || decide (Config.fbufDepth < (v.extractLsb' 0 16).toNat)
  | target => busy && targetLocked (some target)

/-- `targetRefuses` says of a target what `refusedWrite` says of its address. -/
theorem refusedWrite_iff {s : State} {a : Half} {v : Word} {target : Target} (h : targetOf a = some target) :
    refusedWrite s a v ↔ targetRefuses s.busy v target = true := by
  unfold refusedWrite
  rw [(address_class a).2, ← targetOf_ctrl a, ← targetOf_txlen a, ← targetOf_flen a, h]
  cases target <;> simp [targetRefuses, targetLocked]

/-- A write that a misaligned or unmapped address swallows is not refused: it is a bus error. -/
theorem not_refusedWrite {s : State} {a : Half} {v : Word} (h : targetOf a = none) : ¬ refusedWrite s a v := by
  unfold refusedWrite
  rw [(address_class a).2, ← targetOf_ctrl a, ← targetOf_txlen a, ← targetOf_flen a, h]
  simp [targetLocked]

/-- The four sticky flags and SWIPE_DISC. -/
def flagsOf (s : State) : Bool × Bool × Bool × Bool × Half := (s.rxDrop, s.cmdRej, s.busErr, s.wrRej, s.swipeDisc)

theorem cmdWrite_flags {busy : Bool} {v : Word} {s t : State} (h : cmdWrite busy v s = .next t) :
    flagsOf t = (s.rxDrop, s.cmdRej || busy, s.busErr, s.wrRej, s.swipeDisc) := by
  unfold cmdWrite at h
  cases busy with
  | true => cases h; simp [flagsOf]
  | false =>
    simp only [Bool.false_eq_true, if_false] at h
    split at h
    · obtain ⟨hr, hc, hb, hw, hd⟩ := exec_flags h
      simp [flagsOf, hr, hc, hb, hw, hd]
    · cases h; simp [flagsOf]

/-- A register that a running exchange reads: the write is stored, or refused while busy (20_memory.md R77). -/
theorem unlessBusy_flags {store : State → State} {s : State} (hs : flagsOf (store s) = flagsOf s) (busy : Bool) :
    flagsOf (unlessBusy busy store s) = (s.rxDrop, s.cmdRej, s.busErr, s.wrRej || busy, s.swipeDisc) := by
  cases busy
  · simpa [unlessBusy, flagsOf] using hs
  · simp [unlessBusy, flagsOf]

/-- What a write does to the sticky flags and SWIPE_DISC (41_exchange.md R163; 20_memory.md R76, R77). -/
theorem writeTarget_flags {busy : Bool} {target : Target} {v : Word} {s t : State}
    (h : writeTarget busy target v s = .next t) :
    flagsOf t = (s.rxDrop, s.cmdRej || (busy && target = .cmd), s.busErr || targetReadOnly (some target),
      s.wrRej || targetRefuses busy v target, s.swipeDisc) := by
  cases target with
  | cmd => rw [cmdWrite_flags h]; simp [targetReadOnly, targetRefuses, targetLocked]
  | ctrl =>
    cases h
    rw [ctrlLengths_eq]
    simp [flagsOf, targetReadOnly, targetRefuses, Bool.and_comm]
  | txlen =>
    cases h
    unfold writeTxlen
    split <;> simp_all [flagsOf, targetReadOnly, targetRefuses]
  | flen =>
    cases h
    unfold unlessBusy writeFlen
    cases busy
    · simp only [Bool.false_eq_true, if_false]
      split <;> simp_all [flagsOf, targetReadOnly, targetRefuses]
    · simp [flagsOf, targetReadOnly, targetRefuses]
  | cfg | replyTimeout | settle | p0Frame | p0Code | p1Frame | p1Code | fbuf _ =>
    cases h
    rw [unlessBusy_flags rfl]
    simp [targetReadOnly, targetRefuses, targetLocked]
  | _ => cases h; simp [flagsOf, targetReadOnly, targetRefuses, targetLocked]

/-- What the host's access does to the sticky flags and SWIPE_DISC, busy as s is (60_exceptions.md R258). -/
theorem hostAccess_flags {bus : BusAccess} {s u t : State} (h : hostAccess s.busy bus u = .next t) :
    t.rxDrop = u.rxDrop ∧ t.swipeDisc = u.swipeDisc
      ∧ (t.cmdRej = true ↔ u.cmdRej = true ∨ (s.busy = true ∧ ∃ v, bus = .write 0x010 v))
      ∧ (t.busErr = true ↔ u.busErr = true ∨ ∃ a v, bus = .write a v ∧ badWrite a)
      ∧ (t.wrRej = true ↔ u.wrRej = true ∨ ∃ a v, bus = .write a v ∧ refusedWrite s a v) := by
  cases bus with
  | idle => cases h; simp
  | read a => cases h; simp
  | write a v =>
    have at_cmd : (∃ w, BusAccess.write a v = .write 0x010 w) ↔ targetOf a = some .cmd := by simp [targetOf_cmd]
    have only (P : Half → Word → Prop) : (∃ b w, BusAccess.write a v = .write b w ∧ P b w) ↔ P a v :=
      ⟨by rintro ⟨b, w, ⟨⟩, hp⟩; exact hp, fun hp => ⟨a, v, rfl, hp⟩⟩
    rw [at_cmd, only (fun b _ => badWrite b), only (refusedWrite s), (address_class a).1]
    cases ht : targetOf a with
    | none =>
      simp only [hostAccess, ht, Host.Outcome.next.injEq] at h
      subst h
      simp [targetReadOnly, not_refusedWrite ht]
    | some target =>
      simp only [hostAccess, ht] at h
      have e := writeTarget_flags h
      simp only [flagsOf, Prod.mk.injEq] at e
      obtain ⟨hr, hc, hb, hw, hd⟩ := e
      rw [refusedWrite_iff ht, hr, hc, hb, hw, hd]
      simp

/-- Settles O25: the clear comes first, then the engine's events, then the host's. -/
theorem stickyFlagsStay : Obligations.StickyFlagsStay := by
  intro s t inp hr h
  rcases clockCycle_cases h with ⟨hrst, -⟩ | ⟨-, ha⟩
  · exact absurd (hrst.symm.trans hr) (by simp)
  obtain ⟨hrx, hdisc, hcmd, hbus, hwr⟩ := hostAccess_flags ha
  obtain ⟨erx, ecmd, ebus, ewr, edisc⟩ := engineCycle_flag_values inp (ctrlClears inp.bus (begun inp s))
  obtain ⟨d, ec⟩ := ctrlClears_flags inp.bus (begun inp s)
  rw [hrx, hcmd, hbus, hwr, hdisc, erx, ecmd, ebus, ewr, edisc, ec]
  have hdrop (d r c b w n) : byteDropped inp (withFlags d r c b w n (begun inp s)) = byteDropped inp s := rfl
  have hsw (d r c b w n) : swipeDiscarded inp (withFlags d r c b w n (begun inp s)) = swipeDiscarded inp s := rfl
  rw [hdrop, hsw]
  simp only [withFlags, Bool.or_eq_true, Bool.and_eq_true, Bool.not_eq_true']
  exact ⟨Iff.rfl, Iff.rfl, Iff.rfl, Iff.rfl, rfl⟩

end Sys2Proof.Proofs
end

section
/-! SUPPORT. The host port: that a read changes nothing, what the windows read as, what a write does against the cycle without it, and
what a busy machine keeps from the host. -/

namespace Sys2Proof.Proofs

open Sys2Proof.Machine Sys2Proof.Safety Sys2Proof.Laws

theorem eq_of_next {t t' : State} (h : (.next t' : Host.Outcome State Fault Refusal) = .next t) : t = t' :=
  (Host.Outcome.next.inj h).symm

/-! ## The host's access by its address -/

theorem hostAccess_mapped {a : Half} {target : Target} (ht : targetOf a = some target) (busy : Bool) (v : Word) (s : State) :
    hostAccess busy (.write a v) s = writeTarget busy target v s := by simp only [hostAccess, ht]

theorem hostAccess_unmapped {a : Half} (ht : targetOf a = none) (busy : Bool) (v : Word) (s : State) :
    hostAccess busy (.write a v) s = .next (busError s) := by simp only [hostAccess, ht]

/-- A cycle without reset: the CTRL clears, the engine, the host's access (41_exchange.md R160). -/
theorem clockCycle_of_not_reset {inp : Inputs} (hr : inp.rst = false) (s : State) :
    clockCycle inp s = hostAccess s.busy inp.bus (engineCycle inp (ctrlClears inp.bus (begun inp s))) := by
  simp only [clockCycle, hr, Bool.false_eq_true, if_false]
  rfl

/-! ## The host's payload while busy -/

theorem ctrlClears_quiet (m : Memory) (k : Half) (o : Outputs) (bus : BusAccess) (s : State) :
    ctrlClears bus (withQuiet m k o s) = withQuiet m k o (ctrlClears bus s) := by
  unfold ctrlClears
  cases ctrlWord bus with
  | none => rfl
  | some v => dsimp only; split <;> split <;> rfl

/-- A write to a busy machine may store into the host's payload, but reads nothing of it. -/
theorem writeTarget_busy_quiet {target : Target} {v : Word} {s t : State} (h : writeTarget true target v s = .next t)
    (m : Memory) (k : Half) (o : Outputs) :
    ∃ m' k', writeTarget true target v (withQuiet m k o s) = .next (withQuiet m' k' o t) := by
  cases target with
  | ctrl =>
    cases h
    simp only [writeTarget, ctrlLengths_eq]
    exact ⟨m, if v.getLsbD 3 then 0 else k, rfl⟩
  | txlen =>
    cases h
    simp only [writeTarget, writeTxlen]
    split
    · exact ⟨m, k, rfl⟩
    · exact ⟨m, v.extractLsb' 0 16, rfl⟩
  | pbufTx i => cases h; exact ⟨m.write i (v.extractLsb' 0 8), k, rfl⟩
  | _ => cases h; exact ⟨m, k, rfl⟩

theorem hostAccess_busy_quiet {bus : BusAccess} {s t : State} (h : hostAccess true bus s = .next t)
    (m : Memory) (k : Half) (o : Outputs) :
    ∃ m' k', hostAccess true bus (withQuiet m k o s) = .next (withQuiet m' k' o t) := by
  cases bus with
  | idle => cases h; exact ⟨m, k, rfl⟩
  | read a => cases h; exact ⟨m, k, rfl⟩
  | write a v =>
    cases ht : targetOf a with
    | none =>
      rw [hostAccess_unmapped ht] at h ⊢
      cases h
      exact ⟨m, k, rfl⟩
    | some target =>
      rw [hostAccess_mapped ht] at h ⊢
      exact writeTarget_busy_quiet h m k o

/-- A cycle of a busy machine reads nothing of the host's payload, but for what a bus read answers. -/
theorem clockCycle_busy_quiet {inp : Inputs} {s t : State} (hb : s.busy = true) (hr : inp.rst = false)
    (h : clockCycle inp s = .next t) (m : Memory) (k : Half) :
    ∃ m' k', clockCycle inp { s with pbufTx := m, txlen := k }
      = .next (withQuiet m' k' (outputs inp { s with pbufTx := m, txlen := k }) t) := by
  rw [clockCycle_of_not_reset hr, hb] at h
  obtain ⟨m', k', e⟩ := hostAccess_busy_quiet h m k (outputs inp { s with pbufTx := m, txlen := k })
  rw [← engineCycle_quiet, ← ctrlClears_quiet] at e
  exact ⟨m', k', (clockCycle_of_not_reset hr _).trans ((congrArg (hostAccess · _ _) hb).trans e)⟩

/-- Settles O36: neither the CTRL clears nor the engine nor a write to a busy machine reads the host's payload. -/
theorem txBufferNotReadWhileBusy : Obligations.TxBufferNotReadWhileBusy := by
  intro s t t' inp m k hb hr h h'
  obtain ⟨m', k', e⟩ := clockCycle_busy_quiet hb hr h m k
  obtain rfl := eq_of_next (e.symm.trans h')
  rw [show t.out = outputs inp s from clockCycle_out h]
  rfl

/-! ## Reads -/

/-- The engine does not see the recorded outputs. -/
theorem engineCycle_withOut (inp : Inputs) (s : State) (o : Outputs) :
    engineCycle inp { s with out := o } = { engineCycle inp s with out := o } := by
  obtain ⟨hp, hl, -⟩ := engineCycle_keeps inp s
  calc engineCycle inp { s with out := o }
    _ = withQuiet s.pbufTx s.txlen o (engineCycle inp s) := engineCycle_quiet s.pbufTx s.txlen o inp s
    _ = { engineCycle inp s with out := o } := by rw [← hp, ← hl]; rfl

/-- A cycle with a read ends as the cycle without a host access, but for the recorded outputs. -/
theorem clockCycle_read {inp : Inputs} {s u : State} (a : Half) (h : clockCycle { inp with bus := .idle } s = .next u) :
    clockCycle { inp with bus := .read a } s = .next { u with out := outputs { inp with bus := .read a } s } := by
  rcases Bool.eq_false_or_eq_true inp.rst with hr | hr
  · simp only [clockCycle, hr, if_true] at h ⊢
    cases h
    rfl
  · obtain rfl := eq_of_next ((clockCycle_idle hr).symm.trans h)
    have e := clockCycle_of_not_reset (inp := { inp with bus := .read a }) hr s
    rw [ctrlClears_of_not_ctrl _ _ (by rintro v ⟨⟩)] at e
    exact e.trans (congrArg Host.Outcome.next (engineCycle_withOut inp (begun { inp with bus := .idle } s) _))

/-- Settles O17: the outputs with a read and without it differ in rdata. -/
theorem readsChangeNothing : Obligations.ReadsChangeNothing := by
  intro s t u inp a h hu
  obtain rfl := eq_of_next ((clockCycle_read a hu).symm.trans h)
  rw [clockCycle_out hu]
  rfl

/-- Settles O19, by what each address names. -/
theorem windowReads : Obligations.WindowReads := by
  intro s a
  refine ⟨fun i hi ha => busRead_of (targetOf_pbufTx hi ha), fun i hi ha => busRead_of (targetOf_pbufRx hi ha),
    fun i hi ha => busRead_of (targetOf_fbuf hi ha), ?_⟩
  rintro (ha | ha | rfl)
  · simp only [busRead, targetOf_none (.inl ha)]
  · simp only [busRead, targetOf_none (.inr ha)]
  · exact busRead_of (target := .ctrl) rfl

/-! ## Writes against the cycle without them -/

/-- A write to a target other than CTRL, on the state that the cycle without it ends in. -/
theorem clockCycle_writeTarget {inp : Inputs} {s t u : State} {a : Half} {v : Word} {target : Target} (hr : inp.rst = false)
    (h : clockCycle { inp with bus := .write a v } s = .next t) (hu : clockCycle { inp with bus := .idle } s = .next u)
    (ha : targetOf a = some target) (hc : target ≠ .ctrl) : writeTarget s.busy target v u = .next t := by
  rw [← hostAccess_mapped ha]
  refine clockCycle_write hr ?_ h hu
  rintro rfl
  exact hc (Option.some.inj ha).symm

/-! ### The length registers' bounds (10_state.md R42, R44) -/

theorem writeTxlen_above {v : Word} (h : Config.pmax < (v.extractLsb' 0 16).toNat) (s : State) :
    writeTxlen v s = refuseWrite s := if_pos h

theorem writeTxlen_within {v : Word} (h : (v.extractLsb' 0 16).toNat ≤ Config.pmax) (s : State) :
    writeTxlen v s = { s with txlen := v.extractLsb' 0 16 } := if_neg (Nat.not_lt.mpr h)

theorem writeFlen_above {v : Word} (h : Config.fbufDepth < (v.extractLsb' 0 16).toNat) (busy : Bool) (s : State) :
    unlessBusy busy (writeFlen v) s = refuseWrite s := by
  cases busy with
  | false => exact if_pos h
  | true => rfl

theorem writeFlen_within {v : Word} (h : (v.extractLsb' 0 16).toNat ≤ Config.fbufDepth) (s : State) :
    unlessBusy false (writeFlen v) s = { s with flen := v.extractLsb' 0 16 } := if_neg (Nat.not_lt.mpr h)

/-! ### What each kind of write does -/

/-- A write that no target takes sets BUS_ERR (20_memory.md R75, R76). -/
theorem hostAccess_readOnly {a : Half} (ha : targetReadOnly (targetOf a) = true) (busy : Bool) (v : Word) (s : State) :
    hostAccess busy (.write a v) s = .next (busError s) := by
  cases ht : targetOf a with
  | none => exact hostAccess_unmapped ht busy v s
  | some target =>
    rw [ht] at ha
    rw [hostAccess_mapped ht]
    cases target with
    | id | caps | status | result | rxlen | dlRem | txIdx | swipeDisc | pbufRx _ => rfl
    | _ => cases ha

/-- A write to what a running exchange reads is refused (20_memory.md R77). -/
theorem writeTarget_locked {target : Target} (ha : targetLocked (some target) = true) (v : Word) (s : State) :
    writeTarget true target v s = .next (refuseWrite s) := by
  cases target with
  | cfg | replyTimeout | settle | flen | p0Frame | p0Code | p1Frame | p1Code | fbuf _ => rfl
  | _ => cases ha

/-- Settles O21: no target takes a bad write, and CTRL is none of its addresses. -/
theorem badWritesSetBusErr : Obligations.BadWritesSetBusErr := by
  intro s t u inp a v hr hbad h hu
  have ha : targetReadOnly (targetOf a) = true := (address_class a).1.mp hbad
  have hw := clockCycle_write hr (by rintro rfl; cases ha) h hu
  exact eq_of_next ((hostAccess_readOnly ha s.busy v u).symm.trans hw)

/-- While busy, a write of CTRL with FCLR is refused, and its other bits act (10_state.md R32, 20_memory.md R77). -/
theorem clockCycle_fclr_busy {inp : Inputs} {s t u : State} {v : Word} (hr : inp.rst = false) (hb : s.busy = true)
    (hf : v.getLsbD 2 = true) (h : clockCycle { inp with bus := .write 0x00C v } s = .next t)
    (hu : clockCycle { inp with bus := .idle } s = .next u) :
    t.wrRej = true ∧ t.flen = u.flen ∧ t.txlen = (if v.getLsbD 3 then 0 else u.txlen)
      ∧ (v.getLsbD 1 = false → t.rxDrop = u.rxDrop ∧ t.swipeDisc = u.swipeDisc)
      ∧ (v.getLsbD 1 = true → t.cmdRej = false ∧ t.busErr = false) := by
  obtain ⟨fin, e⟩ := engineCycle_flags inp (begun { inp with bus := .idle } s)
  obtain rfl := eq_of_next ((clockCycle_idle hr).symm.trans hu)
  obtain ⟨hdrop, -, -, -, hdisc⟩ := engineCycle_flag_values inp (begun { inp with bus := .idle } s)
  rw [clockCycle_ctrl hr, e, ctrlLengths_eq, hb, hf] at h
  cases h
  refine ⟨Bool.or_true _, rfl, rfl, fun hc => ?_, fun hc => ?_⟩
  · simp only [hc, Bool.not_false, Bool.and_true, Bool.false_eq_true, if_false]
    exact ⟨hdrop.symm, hdisc.symm⟩
  · simp only [hc, Bool.not_true, Bool.and_false]
    exact ⟨rfl, rfl⟩

/-- Settles O22, by what each target does with a write. -/
theorem refusedWrites : Obligations.RefusedWrites := by
  intro s t u inp a v hr h hu
  have key {target : Target} (ha : targetOf a = some target) (hc : target ≠ .ctrl) := clockCycle_writeTarget hr h hu ha hc
  refine ⟨fun hb hl => ?_, ?_, ?_, ?_, ?_, fun i hi ha => ?_, ?_⟩
  · have hl := (address_class a).2.mp hl
    cases ht : targetOf a with
    | none => rw [ht] at hl; cases hl
    | some target =>
      rw [ht] at hl
      have e := key ht (by rintro rfl; cases hl)
      rw [hb, writeTarget_locked hl] at e
      exact eq_of_next e
  · rintro hb rfl hf
    exact clockCycle_fclr_busy hr hb hf h hu
  · rintro rfl hn
    exact (eq_of_next (key (target := .txlen) rfl (by simp))).trans (writeTxlen_above hn u)
  · rintro rfl hn
    exact (eq_of_next (key (target := .flen) rfl (by simp))).trans (writeFlen_above hn s.busy u)
  · rintro rfl hn
    exact (eq_of_next (key (target := .txlen) rfl (by simp))).trans (writeTxlen_within hn u)
  · exact eq_of_next (key (targetOf_pbufTx hi ha) (by simp))
  · rintro hb rfl
    have e := key (target := .cmd) rfl (by simp)
    rw [hb] at e
    exact eq_of_next e

/-- Settles O59, by what each target stores. -/
theorem writesStoreNothingElse : Obligations.WritesStoreNothingElse := by
  intro s t u inp a v hr hb h hu
  have key {target : Target} (ha : targetOf a = some target) (hc : target ≠ .ctrl) : writeTarget false target v u = .next t :=
    hb ▸ clockCycle_writeTarget hr h hu ha hc
  refine ⟨?_, ?_, ?_, ?_, ?_, ?_, fun i hi ha => ?_⟩
  · rintro rfl; cases key (target := .cfg) rfl (by simp); rfl
  · rintro rfl; cases key (target := .replyTimeout) rfl (by simp); rfl
  · rintro rfl; cases key (target := .settle) rfl (by simp); rfl
  · rintro rfl hn
    exact (eq_of_next (key (target := .flen) rfl (by simp))).trans (writeFlen_within hn u)
  · rintro (rfl | rfl)
    · cases key (target := .p0Frame) rfl (by simp); rfl
    · cases key (target := .p1Frame) rfl (by simp); rfl
  · rintro (rfl | rfl)
    · cases key (target := .p0Code) rfl (by simp); rfl
    · cases key (target := .p1Code) rfl (by simp); rfl
  · cases key (targetOf_fbuf hi ha) (by simp); rfl

/-! ## The configuration while busy -/

/-- CMD and what the host configures an exchange with. -/
def configOf (s : State) : Word × Profile × Profile × Half × Half × Bool × Bool × Bool :=
  (s.cmd, s.p0, s.p1, s.replyTimeout, s.settle, s.ie, s.swipeFramed, s.slotAscii)

theorem configOf_dropRx (rx : Option Byte) (s : State) : configOf (dropRx rx s) = configOf s := by cases rx <;> rfl

theorem configOf_txPart (inp : Inputs) (s : State) : configOf (txPart inp s).1 = configOf s := by
  rcases txPart_cases inp s with ⟨-, e⟩ | ⟨-, -, -, e⟩ | ⟨-, -, -, e⟩ | ⟨-, -, e⟩ <;> rw [e]
  case inr.inl => unfold txComplete; dsimp only; split <;> rfl
  all_goals rfl

theorem configOf_interpret (c : Option Instr) (payload : List Byte) (s : State) :
    configOf (interpret c payload s) = configOf s := by
  rcases interpret_cases c payload s with ⟨value, e⟩ | ⟨value, -, e⟩ | ⟨slot, -, -, e⟩ | ⟨slot, bitmap, -, -, -, -, e⟩ <;>
    rw [e] <;> rfl

theorem configOf_rxByte (b : Byte) (s : State) : configOf (rxByte b s).1 = configOf s := by
  unfold rxByte
  split
  · rcases replyByte_cases b s with ⟨payload, -, e⟩ | ⟨code, e, -⟩ | ⟨-, e⟩ <;> rw [e]
    · exact (configOf_interpret _ _ _).trans rfl
    · rfl
    · rfl
  · rfl
  · rcases swipeByte_cases b s with ⟨card, -, e⟩ | e | ⟨-, e⟩ <;> rw [e] <;> rfl

theorem configOf_enginePart (inp : Inputs) (s : State) : configOf (enginePart inp s).1 = configOf s := by
  unfold enginePart
  split
  · exact (configOf_dropRx _ _).trans (configOf_txPart inp s)
  · split
    · exact configOf_rxByte _ s
    · rfl
  all_goals exact configOf_dropRx inp.rx s

theorem configOf_countTick (s : State) : configOf (countTick s) = configOf s := by
  rcases countTick_cases s with ⟨-, e⟩ | ⟨-, e⟩ <;> rw [e]
  · rfl
  · rcases expire_cases { s with dlCnt := 0 } with ⟨-, e⟩ | ⟨-, e⟩ | ⟨-, -, e⟩ | ⟨-, -, e⟩ <;> rw [e] <;> rfl

/-- The engine reads the configuration and never changes it. -/
theorem configOf_engineCycle (inp : Inputs) (s : State) : configOf (engineCycle inp s) = configOf s := by
  unfold engineCycle
  split
  · exact (configOf_countTick _).trans (configOf_enginePart inp s)
  · exact configOf_enginePart inp s

theorem configOf_ctrlClears (bus : BusAccess) (s : State) : configOf (ctrlClears bus s) = configOf s := by
  obtain ⟨keepDone, keepFlags, e⟩ := ctrlClears_cases bus s
  rw [e]; rfl

/-- What stores into the configuration is refused while busy (20_memory.md R77, 41_exchange.md R163). -/
theorem configOf_hostAccess_busy {bus : BusAccess} {s t : State} (h : hostAccess true bus s = .next t) :
    configOf t = configOf s := by
  rcases hostAccess_cases h with rfl | rfl | rfl | ⟨-, rfl⟩ | ⟨v, rfl⟩ | ⟨n, -, rfl⟩ | ⟨i, b, -, rfl⟩ | ⟨⟨⟩, -⟩
    | ⟨⟨⟩, -⟩ | ⟨⟨⟩, -⟩ | ⟨⟨⟩, -⟩ | ⟨⟨⟩, -⟩
  case inr.inr.inr.inr.inl => rw [ctrlLengths_eq]; rfl
  all_goals rfl

/-- Settles O35: neither the CTRL clears nor the engine nor the host's access to a busy machine changes the configuration. -/
theorem busyKeepsConfiguration : Obligations.BusyKeepsConfiguration := by
  intro s t inp hb hr h
  rw [clockCycle_of_not_reset hr, hb] at h
  have e : configOf t = configOf s := calc
    configOf t = configOf (engineCycle inp (ctrlClears inp.bus (begun inp s))) := configOf_hostAccess_busy h
    _ = configOf (ctrlClears inp.bus (begun inp s)) := configOf_engineCycle _ _
    _ = configOf (begun inp s) := configOf_ctrlClears _ _
    _ = configOf s := rfl
  simpa only [configOf, Prod.mk.injEq] using e

end Sys2Proof.Proofs
end

section
/-! SUPPORT. The command word by its fields: what the decoder reads of an assembled word, what a mask keeps of each field, which fields
decide what a word decodes to, and what a reserved OP does when it is written to CMD (30_encoding.md). -/

namespace Sys2Proof.Proofs

open Sys2Proof.Machine Sys2Proof.Safety Sys2Proof.Laws

/-! ## The fields of an assembled word -/

section Fields

variable (op arg : Byte) (psel : BitVec 1) (shape : BitVec 2) (len : Byte)

theorem assemble_arg : Field.arg (assemble op arg psel shape len) = arg := by
  unfold Field.arg assemble
  rw [BitVec.extractLsb'_append_eq_of_le (by decide), BitVec.extractLsb'_append_eq_of_add_le (by decide)]
  exact BitVec.extractLsb'_eq_self

theorem assemble_pselBit : (assemble op arg psel shape len).extractLsb' 16 1 = psel := by
  unfold assemble
  iterate 2 rw [BitVec.extractLsb'_append_eq_of_le (by decide)]
  rw [BitVec.extractLsb'_append_eq_of_add_le (by decide)]
  exact BitVec.extractLsb'_eq_self

theorem assemble_shapeBits : (assemble op arg psel shape len).extractLsb' 17 2 = shape := by
  unfold assemble
  iterate 3 rw [BitVec.extractLsb'_append_eq_of_le (by decide)]
  rw [BitVec.extractLsb'_append_eq_of_add_le (by decide)]
  exact BitVec.extractLsb'_eq_self

theorem assemble_lenBits : (assemble op arg psel shape len).extractLsb' 24 8 = len := by
  unfold assemble
  iterate 5 rw [BitVec.extractLsb'_append_eq_of_le (by decide)]
  exact BitVec.extractLsb'_eq_self

end Fields

theorem assemble_psel (op arg : Byte) (psel : ProfileSel) (shape : BitVec 2) (len : Byte) :
    Field.psel (assemble op arg psel.code shape len) = psel := by
  unfold Field.psel
  rw [assemble_pselBit]
  cases psel <;> rfl

theorem assemble_shape (op arg : Byte) (psel : BitVec 1) (shape : Shape) (len : Byte) :
    Field.shape (assemble op arg psel shape.code len) = shape := by
  unfold Field.shape
  rw [assemble_shapeBits]
  cases shape <;> rfl

/-- A canonical LEN is read as it was assembled (30_encoding.md R95, R106). -/
theorem assemble_len (op arg : Byte) (psel : BitVec 1) {shape : Shape} {len : Byte} (h : lenCanonical shape len = true) :
    Field.len (assemble op arg psel shape.code len) = len := by
  unfold Field.len
  rw [assemble_shape, assemble_lenBits]
  cases shape with
  | fixed => rfl
  | sentinel | lenpfx | noReply => exact (eq_of_beq h).symm

/-! ## The fields of any word -/

/-- A word is its five fields, with the bits [23:19] between LEN and SHAPE (30_encoding.md R90). -/
theorem append_fields (w : Word) :
    w.extractLsb' 24 8 ++ w.extractLsb' 19 5 ++ w.extractLsb' 17 2 ++ w.extractLsb' 16 1 ++ Field.arg w ++ Field.op w = w := by
  unfold Field.arg Field.op
  iterate 5 rw [BitVec.extractLsb'_append_extractLsb'_eq_extractLsb' (by rfl)]
  exact BitVec.extractLsb'_eq_self

/-- A mask made of fields acts on each field, and keeps nothing of the bits [23:19]. -/
theorem and_assemble (w : Word) (op arg : Byte) (psel : BitVec 1) (shape : BitVec 2) (len : Byte) :
    w &&& assemble op arg psel shape len
      = assemble (Field.op w &&& op) (Field.arg w &&& arg) (w.extractLsb' 16 1 &&& psel) (w.extractLsb' 17 2 &&& shape)
          (w.extractLsb' 24 8 &&& len) := calc
  w &&& assemble op arg psel shape len
    = (w.extractLsb' 24 8 ++ w.extractLsb' 19 5 ++ w.extractLsb' 17 2 ++ w.extractLsb' 16 1 ++ Field.arg w ++ Field.op w)
        &&& (len ++ 0#5 ++ shape ++ psel ++ arg ++ op) := by rw [append_fields]; rfl
  _ = _ := by simp only [BitVec.and_append, BitVec.and_zero]; rfl

theorem psel_code (w : Word) : (Field.psel w).code = w.extractLsb' 16 1 := by
  unfold Field.psel
  generalize w.extractLsb' 16 1 = b
  decide +revert

theorem shape_code (w : Word) : (Field.shape w).code = w.extractLsb' 17 2 := by
  unfold Field.shape
  generalize w.extractLsb' 17 2 = b
  decide +revert

/-- LEN is read where the shape is FIXED (30_encoding.md R95). -/
theorem len_eq (w : Word) : Field.len w = if w.extractLsb' 17 2 = 0#2 then w.extractLsb' 24 8 else 0 := by
  rw [← shape_code]
  unfold Field.len
  cases Field.shape w <;> rfl

theorem len_canonical (w : Word) : lenCanonical (Field.shape w) (Field.len w) = true := by
  unfold Field.len
  cases Field.shape w <;> rfl

/-! ## What a word decodes to -/

/-- Settles O2: the decoder finds each field where the assembler put it. -/
theorem decodeOfEncode : Obligations.DecodeOfEncode := by
  intro i hi
  unfold decodeWord
  cases i with
  | queryInv | awaitSwipe => rw [encode, assemble_op]; rfl
  | hasSoda _ | awaitButton _ | vend _ | readerEnable _ | readerDisable _ | setLed _ | setTracks _ =>
    simp only [encode, assemble_op, assemble_arg]; rfl
  | encode psel | cksum psel => simp only [encode, assemble_op, assemble_psel]; rfl
  | exchange psel shape len | decode psel shape len =>
    simp only [encode, assemble_op, assemble_psel, assemble_shape, assemble_len _ _ _ hi]; rfl

/-- A decoded command is the one its word's OP names (30_encoding.md R91). -/
theorem opcode_of_decodeWord {w : Word} {i : Instr} (h : decodeWord w = .ok i) : i.opcode = Field.op w := by
  unfold decodeWord at h
  split at h
  case h_14 => cases h
  all_goals next hop => cases h; exact hop.symm

theorem wellFormed_of_decodeWord {w : Word} {i : Instr} (h : decodeWord w = .ok i) : i.WellFormed := by
  unfold decodeWord at h
  split at h <;> cases h
  case h_10 | h_12 => exact len_canonical w
  all_goals rfl

theorem opcode_mem (i : Instr) : i.opcode ∈ opcodes := by cases i <;> simp [Instr.opcode, opcodes]

/-- A word decodes exactly when its OP is in the opcode map (30_encoding.md R91, R98). -/
theorem decodeWord_ok_iff (w : Word) : (∃ i, decodeWord w = .ok i) ↔ Field.op w ∈ opcodes := by
  constructor
  · rintro ⟨i, h⟩
    rw [← opcode_of_decodeWord h]
    exact opcode_mem i
  · intro h
    unfold decodeWord
    split
    case h_14 => simp_all [opcodes]
    all_goals exact ⟨_, rfl⟩

/-- Of a word whose OP is reserved the decoder answers the OP alone (30_encoding.md R98). -/
theorem decodeWord_reserved {w : Word} (h : Field.op w ∉ opcodes) : decodeWord w = .error (.badOpcode (Field.op w)) := by
  cases hd : decodeWord w with
  | ok i => exact absurd ((decodeWord_ok_iff w).mp ⟨i, hd⟩) h
  | error e =>
    unfold decodeWord at hd
    split at hd <;> cases hd
    rfl

/-! ## Used and ignored fields -/

/-- The bits a command uses are its OP and, by its row of the opcode map, ARG, or PSEL, or PSEL, SHAPE and LEN (30_encoding.md R91). -/
theorem and_usedBits (w : Word) :
    w &&& usedBits w =
      if Field.op w ∈ [0x02#8, 0x03#8, 0x04#8, 0x10#8, 0x11#8, 0x12#8, 0x13#8] then assemble (Field.op w) (Field.arg w) 0 0 0
      else if Field.op w ∈ [0x20#8, 0x22#8] then
        assemble (Field.op w) 0 (Field.psel w).code (Field.shape w).code (Field.len w)
      else if Field.op w ∈ [0x21#8, 0x23#8] then assemble (Field.op w) 0 (Field.psel w).code 0 0
      else assemble (Field.op w) 0 0 0 0 := by
  rw [psel_code, shape_code, len_eq, usedBits, show w.extractLsb' 0 8 = Field.op w from rfl,
    show (0x0000FFFF : Word) = assemble (.allOnes 8) (.allOnes 8) 0 0 0 from rfl,
    show (0xFF0700FF : Word) = assemble (.allOnes 8) 0 (.allOnes 1) (.allOnes 2) (.allOnes 8) from rfl,
    show (0x000700FF : Word) = assemble (.allOnes 8) 0 (.allOnes 1) (.allOnes 2) 0 from rfl,
    show (0x000100FF : Word) = assemble (.allOnes 8) 0 (.allOnes 1) 0 0 from rfl,
    show (0x000000FF : Word) = assemble (.allOnes 8) 0 0 0 0 from rfl]
  split_ifs <;> simp only [and_assemble, BitVec.ofNat_eq_ofNat, BitVec.and_allOnes, BitVec.and_zero]

/-- A decoded command assembles to the bits it uses, unnamed fields 0 (30_encoding.md R91, R97, R106). -/
theorem encode_of_decodeWord {w : Word} {i : Instr} (h : decodeWord w = .ok i) : encode i = w &&& usedBits w := by
  rw [and_usedBits]
  unfold decodeWord at h
  split at h <;> cases h
  all_goals next hop => rw [hop]; rfl

/-- Settles O3, branch by branch of the decoder. -/
theorem decodeKeepsUsedFields : Obligations.DecodeKeepsUsedFields := fun _ _ h =>
  ⟨wellFormed_of_decodeWord h, encode_of_decodeWord h⟩

theorem op_and_usedBits (w : Word) : Field.op (w &&& usedBits w) = Field.op w := by
  rw [and_usedBits]
  split_ifs <;> exact assemble_op _ _ _ _ _

/-- The ignored fields of a command may be cleared (30_encoding.md R97). -/
theorem decodeWord_and_usedBits (w : Word) : decodeWord (w &&& usedBits w) = decodeWord w := by
  by_cases h : Field.op w ∈ opcodes
  · obtain ⟨i, hi⟩ := (decodeWord_ok_iff w).mpr h
    rw [← encode_of_decodeWord hi, hi]
    exact decodeOfEncode i (wellFormed_of_decodeWord hi)
  · rw [decodeWord_reserved h, ← op_and_usedBits w]
    exact decodeWord_reserved (by rwa [op_and_usedBits])

/-- No command uses the bits [23:19] (30_encoding.md R90). -/
theorem decodeWord_and_fields (w : Word) : decodeWord (w &&& 0xFF07FFFF) = decodeWord w := by
  have h : w &&& 0xFF07FFFF
      = assemble (Field.op w) (Field.arg w) (w.extractLsb' 16 1) (w.extractLsb' 17 2) (w.extractLsb' 24 8) :=
    (and_assemble w (.allOnes 8) (.allOnes 8) (.allOnes 1) (.allOnes 2) (.allOnes 8)).trans (by simp only [BitVec.and_allOnes])
  rw [h]
  simp only [decodeWord, Field.psel, Field.shape, Field.len, assemble_op, assemble_arg, assemble_pselBit, assemble_shapeBits,
    assemble_lenBits]

/-- Settles O4: a word decodes as its used fields do, and a CMD write keeps the whole word. -/
theorem ignoredFieldsHaveNoEffect : Obligations.IgnoredFieldsHaveNoEffect := by
  refine ⟨fun w v h => ?_, fun w v h => ?_, fun s t inp v hr hb h => ?_⟩
  · unfold commandOf
    rw [← decodeWord_and_usedBits w, h, decodeWord_and_usedBits]
  · rw [← decodeWord_and_fields w, h, decodeWord_and_fields]
  · rw [busRead_of (target := .cmd) rfl]
    exact cmdWrite_cmd (clockCycle_write_idle (target := .cmd) hr hb rfl (by decide) h)

/-! ## A reserved OP -/

/-- A CMD write with a reserved OP on a machine that is not busy is accepted and ends at once (30_encoding.md R98). -/
theorem cmdWrite_reserved {v : Word} (h : Field.op v ∉ opcodes) (s : State) :
    cmdWrite false v s = .next (finish none .invalidArgument .badOpcode 0 none (opened { s with cmd := v })) := by
  unfold cmdWrite
  rw [decodeWord_reserved h]
  rfl

/-- A cycle with a CMD write on a machine that is not busy, without a received byte, is that write alone (41_exchange.md R160). -/
theorem clockCycle_cmdWrite {inp : Inputs} {s : State} {v : Word} (hr : inp.rst = false) (hb : s.busy = false)
    (hx : inp.rx = none) (hw : inp.bus = .write 0x010 v) : clockCycle inp s = cmdWrite false v (begun inp s) := by
  have he : engineCycle inp (begun inp s) = begun inp s := by rw [engineCycle_not_busy inp (begun inp s) hb, hx]; rfl
  rw [clockCycle_of_not_reset hr, hw, ctrlClears_of_not_ctrl _ _ (by rintro u ⟨⟩), he, hb]
  exact hostAccess_mapped (target := .cmd) rfl _ _ _

/-- Settles O5: the decoder's last branch, and what a CMD write does with it. -/
theorem reservedOpcodeFinishes : Obligations.ReservedOpcodeFinishes := by
  refine ⟨decodeWord_ok_iff, fun s inp v hv hr hb hx hw => ⟨_, ?_, finish_none none _ _ _ _, rfl⟩⟩
  rw [clockCycle_cmdWrite hr hb hx hw]
  exact cmdWrite_reserved hv _

/-! ## The examples -/

/-- Settles O1: the words by evaluation, their decoding by that of assembled words. -/
theorem exampleWordsAssemble : Obligations.ExampleWordsAssemble := by
  intro p hp
  obtain ⟨hwf, he⟩ : p.1.WellFormed ∧ encode p.1 = p.2 := by revert p; decide
  exact ⟨he, he ▸ decodeOfEncode p.1 hwf⟩

end Sys2Proof.Proofs
end

section
/-! SUPPORT. The frames of commands under the profiles after reset (30_encoding.md R101, R102). -/

namespace Sys2Proof.Proofs

open Sys2Proof.Machine Sys2Proof.Safety Sys2Proof.Laws

/-- Under P0 after reset a payload goes on the line as it is. -/
theorem encodeFrame_resetP0 (payload : List Byte) : encodeFrame Profile.resetP0 payload = .ok payload := by
  simp [encodeFrame, Profile.resetP0, Profile.header, stuff, checkBytes, termBytes]

/-- Settles O9: P0 after reset adds nothing, and the slot's byte is the one CFG.SLOT_ASCII selects. -/
theorem vendingFramesBare : Obligations.VendingFramesBare :=
  ⟨encodeFrame_resetP0 _, encodeFrame_resetP0 _, fun _ _ _ => encodeFrame_resetP0 _⟩

/-- Under P1 after reset a payload goes between the header 60 00 and its LRC, and 03 ends the frame, unless 03 stands before. -/
theorem encodeFrame_resetP1 {payload : List Byte} (hp : 0x03#8 ∉ payload) (hc : xorfold 0x60 payload ≠ 0x03) :
    encodeFrame Profile.resetP1 payload = .ok ([0x60, 0x00] ++ payload ++ [xorfold 0x60 payload, 0x03]) := by
  have hterm : (payload ++ checkBytes Profile.resetP1 payload).contains Profile.resetP1.term = false := by
    simpa [checkBytes, checksum, Profile.resetP1, hp] using Ne.symm hc
  unfold encodeFrame
  rw [hterm]
  simp [Profile.resetP1, Profile.header, stuff, checkBytes, checksum, termBytes]

/-- Settles O10: the frame of P1 after reset, and that XOR with 00 changes nothing. -/
theorem stripeFrameLayout : Obligations.StripeFrameLayout := by
  intro payload hp hc
  refine ⟨encodeFrame_resetP1 hp hc, ?_, ?_⟩
  · simp
  · exact congrArg (xorfold · payload) BitVec.xor_zero

end Sys2Proof.Proofs
end

section
/-! SUPPORT. The checksum as a sum over XOR: what changing or adding bytes does to it, and what the body check of Decode makes of that
(40_codec.md R121 to R123). -/

namespace Sys2Proof.Proofs

open Sys2Proof.Machine Sys2Proof.Safety Sys2Proof.Laws

/-! ## The seeded XOR of a byte list -/

/-- The folds of two lists add up. -/
theorem xorfold_append_xor (seed : Byte) (xs ys : List Byte) :
    xorfold seed (xs ++ ys) = xorfold seed xs ^^^ xorfold 0 ys := by rw [xorfold_append, xorfold_seed]

/-- A changed byte changes the fold by the difference of the old byte and the new. -/
theorem xorfold_set (seed : Byte) {bytes : List Byte} {i : Nat} (b : Byte) (hi : i < bytes.length) :
    xorfold seed (bytes.set i b) = xorfold seed bytes ^^^ (bytes.getD i 0 ^^^ b) := by
  induction bytes generalizing seed i with
  | nil => cases hi
  | cons x xs ih =>
    cases i with
    | zero =>
      simp only [List.set_cons_zero, List.getD_cons_zero, xorfold_cons]
      rw [xorfold_seed (seed ^^^ b), xorfold_seed (seed ^^^ x)]
      have hx : seed ^^^ b = seed ^^^ x ^^^ (x ^^^ b) := by simp [BitVec.xor_assoc]
      rw [hx]
      ac_rfl
    | succ i => exact ih _ (Nat.lt_of_succ_lt_succ hi)

/-- A byte changed to another value changes the fold. -/
theorem xorfold_set_ne (seed : Byte) {bytes : List Byte} {i : Nat} {b : Byte} (hi : i < bytes.length)
    (hb : bytes[i]? ≠ some b) : xorfold seed (bytes.set i b) ≠ xorfold seed bytes := by
  intro h
  rw [xorfold_set seed b hi] at h
  have hsame : bytes.getD i 0 = b :=
    BitVec.xor_eq_zero_iff.mp ((BitVec.xor_right_inj _).mp (h.trans BitVec.xor_zero.symm))
  exact hb (by simp [← hsame, hi])

/-- The same difference in two bytes cancels. -/
theorem xorfold_set_set (seed d : Byte) {bytes : List Byte} {i j : Nat} (hij : i < j) (hj : j < bytes.length) :
    xorfold seed ((bytes.set i (bytes.getD i 0 ^^^ d)).set j (bytes.getD j 0 ^^^ d)) = xorfold seed bytes := by
  have hkeep : (bytes.set i (bytes.getD i 0 ^^^ d)).getD j 0 = bytes.getD j 0 := by
    simp only [List.getD_eq_getElem?_getD, List.getElem?_set_ne (Nat.ne_of_lt hij)]
  rw [xorfold_set seed _ (by simpa using hj), hkeep, xorfold_set seed _ (hij.trans hj)]
  simp only [xor_cancel_left, xor_cancel_right]

/-- Settles O6: a change of the payload changes the fold by the XOR of what it changed or added. -/
theorem checksumDetectsOneByte : Obligations.ChecksumDetectsOneByte := by
  refine ⟨fun p _ _ _ hi hb => xorfold_set_ne p.seed hi hb, fun p _ _ _ d hij hj => xorfold_set_set p.seed d hij hj,
    fun p before added after => ?_, fun payload => ?_, fun seed => ⟨rfl, fun v => ⟨[seed ^^^ v], ?_⟩⟩⟩
  · have hsplit : checksum p (before ++ added ++ after) = checksum p (before ++ after) ^^^ xorfold 0 added := by
      simp only [checksum, xorfold_append_xor]
      ac_rfl
    rw [hsplit]
    simp
  · have hheader : xorfold 0 ([0x60, 0x00] ++ payload) = checksum Profile.resetP1 payload := rfl
    rw [xorfold_append_xor, hheader]
    simp
  · simp

/-! ## The body check of Decode -/

/-- A checksum byte is right exactly when payload and checksum byte together fold to 0 (40_codec.md R122). -/
theorem eq_checksum_iff (p : Profile) (payload : List Byte) (c : Byte) :
    c = checksum p payload ↔ xorfold p.seed (payload ++ [c]) = 0 := by
  have hfold : xorfold p.seed (payload ++ [c]) = checksum p payload ^^^ c := by
    simp [xorfold_append_xor, checksum]
  rw [hfold]
  exact eq_comm.trans BitVec.xor_eq_zero_iff.symm

theorem checkBody_concat {p : Profile} (hck : p.ckEn = true) (payload : List Byte) (c : Byte) :
    checkBody p (payload ++ [c]) = if c = checksum p payload then .ok payload else .error .checksumMismatch := by
  simp [checkBody, hck]

/-- A body that does not fold to 0 is turned down. -/
theorem checkBody_mismatch {p : Profile} (hck : p.ckEn = true) {body : List Byte} (hne : body ≠ [])
    (hfold : xorfold p.seed body ≠ 0) : checkBody p body = .error .checksumMismatch := by
  rw [← List.dropLast_append_getLast hne] at hfold ⊢
  rw [checkBody_concat hck, if_neg (mt (eq_checksum_iff p _ _).mp hfold)]

/-- The body check undoes the appending of the checksum part, and accepts nothing else. -/
theorem checkBody_eq_ok_iff {p : Profile} {body payload : List Byte} :
    checkBody p body = .ok payload ↔ body = payload ++ checkBytes p payload := by
  cases hck : p.ckEn with
  | false => simp [checkBody, checkBytes, hck]
  | true =>
    rcases List.eq_nil_or_concat' body with rfl | ⟨front, c, rfl⟩
    · simp [checkBody, checkBytes, hck]
    · rw [checkBody_concat hck, checkBytes, if_pos hck, List.append_singleton_inj]
      constructor
      · intro h
        split at h
        · next hc => cases h; exact ⟨rfl, hc⟩
        · cases h
      · rintro ⟨rfl, hc⟩
        exact if_pos hc

end Sys2Proof.Proofs
end

section
/-! SUPPORT. Stuffing and its inverse: Unstuff accepts exactly the stuffed lists, a stuffed list holds no terminator, and its length
(40_codec.md R124 to R126). -/

namespace Sys2Proof.Proofs

open Sys2Proof.Machine Sys2Proof.Safety Sys2Proof.Laws

/-! ## One byte -/

theorem stuffByte_pair {p : Profile} {b : Byte} (hb : b = p.term ∨ b = p.esc) : stuffByte p b = [p.esc, b ^^^ p.mask] := if_pos hb

theorem stuffByte_plain {p : Profile} {b : Byte} (hb : ¬ (b = p.term ∨ b = p.esc)) : stuffByte p b = [b] := if_neg hb

theorem unstuffEsc_pair {p : Profile} {b : Byte} (hb : b = p.term ∨ b = p.esc) (rest : List Byte) :
    unstuffEsc p (p.esc :: (b ^^^ p.mask) :: rest) = (b :: ·) <$> unstuffEsc p rest := by
  have hcanonical : ¬ (b ≠ p.term ∧ b ≠ p.esc) := by tauto
  rw [unstuffEsc, if_pos rfl, xor_cancel_right, if_neg hcanonical]
  cases unstuffEsc p rest <;> rfl

theorem unstuffEsc_plain {p : Profile} {b : Byte} (hb : ¬ (b = p.term ∨ b = p.esc)) (rest : List Byte) :
    unstuffEsc p (b :: rest) = (b :: ·) <$> unstuffEsc p rest := by
  obtain ⟨hterm, hesc⟩ := not_or.mp hb
  cases rest with
  | nil => simp [unstuffEsc, hesc, hterm]
  | cons y rest =>
    rw [unstuffEsc, if_neg hesc, if_neg hterm]
    cases unstuffEsc p (y :: rest) <;> rfl

/-- Unstuff takes one stuffed byte off a list. -/
theorem unstuffEsc_stuffByte (p : Profile) (b : Byte) (rest : List Byte) :
    unstuffEsc p (stuffByte p b ++ rest) = (b :: ·) <$> unstuffEsc p rest := by
  by_cases hb : b = p.term ∨ b = p.esc
  · rw [stuffByte_pair hb]; exact unstuffEsc_pair hb rest
  · rw [stuffByte_plain hb]; exact unstuffEsc_plain hb rest

/-- No byte of a stuffed byte is TERM: a pair's first is ESC, its second TERM or ESC masked, and 10_state.md R39 keeps all three off TERM. -/
theorem term_notMem_stuffByte {p : Profile} (hvalid : p.valid = true) (hesc : p.escEn = true) (b : Byte) :
    p.term ∉ stuffByte p b := by
  simp only [Profile.valid, hesc, Bool.not_true, Bool.false_or, Bool.and_eq_true, bne_iff_ne] at hvalid
  obtain ⟨-, ⟨hne, hmask⟩, hmask'⟩ := hvalid
  by_cases hb : b = p.term ∨ b = p.esc
  · rw [stuffByte_pair hb, List.mem_pair]
    rintro (h | h)
    · exact hne h.symm
    · rcases hb with rfl | rfl
      · exact hmask ((BitVec.xor_right_inj p.term).mp (h.symm.trans BitVec.xor_zero.symm))
      · exact hmask' (by rw [h, xor_cancel_left])
  · rw [stuffByte_plain hb, List.mem_singleton]
    exact fun h => hb (.inl h.symm)

/-! ## A whole list -/

theorem unstuffEsc_flatMap (p : Profile) (bytes : List Byte) : unstuffEsc p (bytes.flatMap (stuffByte p)) = .ok bytes := by
  induction bytes with
  | nil => rfl
  | cons b bs ih => rw [List.flatMap_cons, unstuffEsc_stuffByte, ih]; rfl

/-- A list that Unstuff accepts is what it answers, stuffed. -/
theorem flatMap_of_unstuffEsc {p : Profile} {bytes out : List Byte} (h : unstuffEsc p bytes = .ok out) :
    bytes = out.flatMap (stuffByte p) := by
  fun_induction unstuffEsc p bytes generalizing out with
  | case1 => cases h; rfl
  | case3 x hx => cases h; simp [stuffByte_plain (mt Or.symm hx)]
  | case5 y rest hy tail htail ih =>
    cases h
    have hpair : y ^^^ p.mask = p.term ∨ y ^^^ p.mask = p.esc := by tauto
    rw [List.flatMap_cons, stuffByte_pair hpair, xor_cancel_right, ← ih htail]
    rfl
  | case8 x y rest hesc hterm tail htail ih =>
    cases h
    rw [List.flatMap_cons, stuffByte_plain (not_or.mpr ⟨hterm, hesc⟩), ← ih htail]
    rfl
  | case2 | case4 | case6 | case7 | case9 => cases h

/-- Unstuff undoes Stuff, and accepts nothing else (40_codec.md R125). -/
theorem unstuff_eq_ok_iff {p : Profile} {bytes out : List Byte} : unstuff p bytes = .ok out ↔ bytes = stuff p out := by
  unfold unstuff stuff
  split
  · exact ⟨flatMap_of_unstuffEsc, by rintro rfl; exact unstuffEsc_flatMap p out⟩
  · exact ⟨Except.ok.inj, congrArg _⟩

theorem term_notMem_stuff {p : Profile} (hvalid : p.valid = true) (hesc : p.escEn = true) (bytes : List Byte) :
    p.term ∉ stuff p bytes := by
  rw [stuff, if_pos hesc, List.mem_flatMap]
  rintro ⟨b, -, hb⟩
  exact term_notMem_stuffByte hvalid hesc b hb

/-- Settles O7: Unstuff accepts exactly the stuffed lists, and no stuffed byte is TERM. -/
theorem unstuffInvertsStuff : Obligations.UnstuffInvertsStuff := fun _ bytes hvalid =>
  ⟨unstuff_eq_ok_iff.mpr rfl, fun hesc => term_notMem_stuff hvalid hesc bytes⟩

/-- Stuffing adds bytes and takes none away. -/
theorem length_le_stuff (p : Profile) (bytes : List Byte) : bytes.length ≤ (stuff p bytes).length := by
  unfold stuff
  split
  · induction bytes with
    | nil => simp
    | cons b bs ih =>
      have := (stuffByte_length p b).1
      simp only [List.flatMap_cons, List.length_append, List.length_cons]
      omega
  · omega

/-- Settles O8: each byte becomes one or two, and FBUF_DEPTH leaves room for header, doubled payload and checksum, terminator. -/
theorem frameFitsBuffer : Obligations.FrameFitsBuffer :=
  ⟨fun p bytes => ⟨length_le_stuff p bytes, stuff_length_le p bytes⟩, fun _ _ _ hp h => encodeFrame_length_le h hp⟩

end Sys2Proof.Proofs
end

section
/-! SUPPORT. Whole frames: Decode of a byte list cut into header, body and terminator, the frames it accepts, where the delimiter finds their
end, and what a changed byte does (40_codec.md R127 to R138). -/

namespace Sys2Proof.Proofs

open Sys2Proof.Machine Sys2Proof.Safety Sys2Proof.Laws

/-! ## Decode -/

theorem decodeFrame_unterminated {p : Profile} {bytes : List Byte} (hterm : p.termEn = true)
    (hlast : bytes.getLast? ≠ some p.term) (shape : Shape) (n : Nat) :
    decodeFrame p shape n bytes = .error .unterminatedFrame := by
  simp [decodeFrame, hterm, hlast]

/-- The last byte of a list that ends in the terminator part. -/
theorem getLast?_termBytes {p : Profile} (hterm : p.termEn = true) (front : List Byte) :
    (front ++ termBytes p).getLast? = some p.term := by
  simp [termBytes, hterm]

/-- Decode of a list that ends in the terminator part compares as many bytes as the header has with the header, then runs Unstuff, the
checksum and the length checks on the rest (40_codec.md R136). -/
theorem decodeFrame_parts {p : Profile} {head : List Byte} (hlen : head.length = p.header.length) (shape : Shape) (n : Nat)
    (body : List Byte) :
    decodeFrame p shape n (head ++ body ++ termBytes p) =
      if head ≠ p.header then .error .headerMismatch
      else unstuff p body >>= checkBody p >>= checkPayload shape n := by
  have hend : (p.termEn && (head ++ body ++ termBytes p).getLast? != some p.term) = false := by
    cases hterm : p.termEn with
    | false => rfl
    | true => simp [getLast?_termBytes hterm]
  have hlong : ¬ (head ++ body ++ termBytes p).length < p.header.length + p.termLen := by simp [hlen]
  have htake : (head ++ body ++ termBytes p).take p.header.length = head := by
    rw [List.append_assoc, List.take_left' hlen]
  have hbody : ((head ++ body ++ termBytes p).take ((head ++ body ++ termBytes p).length - p.termLen)).drop p.header.length
      = body := by
    rw [List.take_left' (by simp; omega), List.drop_left' hlen]
  rw [decodeFrame, hend, if_neg Bool.false_ne_true, if_neg hlong, htake, hbody]
  cases unstuff p body with
  | error code => rfl
  | ok out => cases hck : checkBody p out <;> simp [hck, bind, Except.bind]

/-- A list that Decode accepts begins with the header and ends in the terminator part. -/
theorem parts_of_decodeFrame_ok {p : Profile} {shape : Shape} {n : Nat} {bytes payload : List Byte}
    (h : decodeFrame p shape n bytes = .ok payload) : ∃ body, bytes = p.header ++ body ++ termBytes p := by
  unfold decodeFrame at h
  split_ifs at h with hend hlong hhead
  obtain ⟨front, rfl⟩ : ∃ front, bytes = front ++ termBytes p := by
    cases hterm : p.termEn with
    | false => exact ⟨bytes, by simp [termBytes, hterm]⟩
    | true =>
      obtain ⟨front, rfl⟩ := List.getLast?_eq_some_iff.mp (by simpa [hterm] using hend)
      exact ⟨front, by simp [termBytes, hterm]⟩
  have hfront : p.header.length ≤ front.length := by simpa using hlong
  rw [not_not, List.take_append_of_le_length hfront] at hhead
  exact ⟨front.drop p.header.length, by rw [← hhead, List.length_take_of_le hfront, List.take_append_drop]⟩

theorem except_bind_eq_ok {ε α β : Type} {x : Except ε α} {f : α → Except ε β} {b : β} :
    x >>= f = .ok b ↔ ∃ a, x = .ok a ∧ f a = .ok b := by
  cases x <;> simp [bind, Except.bind]

/-- Decode accepts exactly the encoder's frame of a payload that passes the length checks. -/
theorem decodeFrame_eq_ok_iff {p : Profile} {shape : Shape} {n : Nat} {bytes payload : List Byte} :
    decodeFrame p shape n bytes = .ok payload ↔
      bytes = p.header ++ stuff p (payload ++ checkBytes p payload) ++ termBytes p
        ∧ checkPayload shape n payload = .ok payload := by
  have hbody (body : List Byte) : decodeFrame p shape n (p.header ++ body ++ termBytes p) = .ok payload
      ↔ ∃ inner, body = stuff p (inner ++ checkBytes p inner) ∧ checkPayload shape n inner = .ok payload := by
    rw [decodeFrame_parts rfl, if_neg (not_not.mpr rfl)]
    simp only [except_bind_eq_ok, unstuff_eq_ok_iff, checkBody_eq_ok_iff, exists_eq_right]
  constructor
  · intro h
    obtain ⟨body, rfl⟩ := parts_of_decodeFrame_ok h
    obtain ⟨inner, rfl, hinner⟩ := (hbody body).mp h
    obtain ⟨rfl, -⟩ := checkPayload_ok _ _ _ _ hinner
    exact ⟨rfl, hinner⟩
  · rintro ⟨rfl, hpayload⟩
    exact (hbody _).mpr ⟨payload, rfl, hpayload⟩

/-- Settles O14: what Decode accepts is the encoder's frame, and the length checks bound its payload. -/
theorem decodeAcceptsOnlyFrames : Obligations.DecodeAcceptsOnlyFrames := by
  intro p shape n bytes payload h
  obtain ⟨hframe, hpayload⟩ := decodeFrame_eq_ok_iff.mp h
  exact ⟨hframe, (checkPayload_ok _ _ _ _ hpayload).2⟩

/-- Settles O11: a frame of Encode is one that Decode accepts, and the payload has its own length. -/
theorem decodeOfEncodeFrame : Obligations.DecodeOfEncodeFrame := by
  intro p payload frame _ hp h
  have hframe := (encodeFrame_ok h).1
  exact ⟨decodeFrame_eq_ok_iff.mpr ⟨hframe, by simp [checkPayload, hp]⟩,
    fun _ => decodeFrame_eq_ok_iff.mpr ⟨hframe, by simp [checkPayload, hp]⟩⟩

/-! ## The delimiter -/

/-- The body of a frame of a terminated profile holds no terminator: stuffing removed it, or Encode refused it (40_codec.md R125, R128). -/
theorem term_notMem_body {p : Profile} {payload frame : List Byte} (hvalid : p.valid = true) (hterm : p.termEn = true)
    (h : encodeFrame p payload = .ok frame) : p.term ∉ stuff p (payload ++ checkBytes p payload) := by
  cases hesc : p.escEn with
  | false =>
    rw [stuff, hesc, if_neg Bool.false_ne_true]
    exact (encodeFrame_ok h).2 hterm hesc
  | true => exact term_notMem_stuff hvalid hesc _

theorem frameComplete_iff_of_termEn {p : Profile} (hterm : p.termEn = true) (shape : Shape) (n : Nat) (bytes : List Byte) :
    frameComplete p shape n bytes = true ↔ bytes.getLast? = some p.term ∧ p.minTermIdx < bytes.length := by
  simp [frameComplete, hterm]

theorem frameComplete_fixed {p : Profile} (hterm : p.termEn = false) (n : Nat) (bytes : List Byte) :
    frameComplete p .fixed n bytes = (bytes.length == p.expLen n) := by
  simp [frameComplete, hterm]

/-- A terminator that ends the first k bytes of a frame, not all of it and more than the header, stands in the body. -/
theorem term_mem_of_take {p : Profile} {body : List Byte} {k : Nat}
    (hk : k < (p.header ++ body ++ termBytes p).length) (hhead : p.header.length < k)
    (hlast : ((p.header ++ body ++ termBytes p).take k).getLast? = some p.term) : p.term ∈ body := by
  have ht := termLen_le p
  simp only [List.length_append, termBytes_length] at hk
  have htake : (p.header ++ body ++ termBytes p).take k = p.header ++ body.take (k - p.header.length) := by
    rw [List.take_append_of_le_length (by simp only [List.length_append]; omega), List.take_append,
      List.take_of_length_le hhead.le]
  rw [htake] at hlast
  rcases List.eq_nil_or_concat' (body.take (k - p.header.length)) with hnil | ⟨front, c, hconcat⟩
  · have hl := congrArg List.length hnil
    simp only [List.length_take, List.length_nil] at hl
    omega
  · have hc : c = p.term := by simpa [hconcat] using hlast
    have hmem : p.term ∈ body.take (k - p.header.length) := by simp [hconcat, hc]
    exact List.mem_of_mem_take hmem

/-- Without a terminator there is no escaping, and a frame's length is its payload's plus the fixed parts (40_codec.md R131, R132). -/
theorem encodeFrame_length_of_not_termEn {p : Profile} {payload frame : List Byte} (hvalid : p.valid = true)
    (hterm : p.termEn = false) (h : encodeFrame p payload = .ok frame) : frame.length = p.expLen payload.length := by
  have hesc : p.escEn = false := by
    simp [Profile.valid, hterm] at hvalid
    exact hvalid.1.2
  rw [(encodeFrame_ok h).1]
  simp [stuff, hesc, termBytes, hterm, Profile.expLen, Nat.add_assoc]

/-- Settles O12: with a terminator, because the body holds none; without one, by the length. -/
theorem delimiterFindsFrame : Obligations.DelimiterFindsFrame := by
  intro p payload frame hvalid _ h
  cases hterm : p.termEn with
  | true =>
    have hbody := length_le_stuff p (payload ++ checkBytes p payload)
    simp only [List.length_append, checkBytes_length] at hbody
    have hmem := term_notMem_body hvalid hterm h
    obtain ⟨rfl, -⟩ := encodeFrame_ok h
    simp only [Bool.eq_false_iff, ne_eq, frameComplete_iff_of_termEn hterm]
    refine ⟨⟨getLast?_termBytes hterm _, ?_⟩, fun k hk hcomplete => ?_⟩
    · simp [Profile.minTermIdx, Profile.termLen, hterm]
      omega
    · obtain ⟨hlast, hidx⟩ := hcomplete
      rw [List.length_take, Profile.minTermIdx] at hidx
      exact hmem (term_mem_of_take hk (by omega) hlast)
  | false =>
    have hlen := encodeFrame_length_of_not_termEn hvalid hterm h
    rw [if_neg Bool.false_ne_true]
    refine ⟨by simp [frameComplete_fixed hterm, hlen], fun k hk => ?_⟩
    simp [frameComplete_fixed hterm, ← hlen]
    omega

/-! ## One changed byte -/

/-- The body of an unescaped frame with a checksum, one byte of it changed, fails the checksum, whichever byte it is. -/
theorem checkBody_set {p : Profile} (hck : p.ckEn = true) (payload : List Byte) {i : Nat} {b : Byte}
    (hi : i < (payload ++ checkBytes p payload).length) (hb : (payload ++ checkBytes p payload)[i]? ≠ some b) :
    checkBody p ((payload ++ checkBytes p payload).set i b) = .error .checksumMismatch := by
  have hfold : xorfold p.seed (payload ++ checkBytes p payload) = 0 := by
    rw [checkBytes, if_pos hck]
    exact (eq_checksum_iff p payload _).mp rfl
  exact checkBody_mismatch hck (List.ne_nil_of_length_pos (by rw [List.length_set]; omega)) (hfold ▸ xorfold_set_ne p.seed hi hb)

theorem set_ne_self {l : List Byte} {i : Nat} {b : Byte} (hi : i < l.length) (hb : l[i]? ≠ some b) : l.set i b ≠ l := by
  intro h
  rw [← h] at hb
  simp [hi] at hb

/-- Settles O13, by the part of the frame that the changed byte lies in: terminator, header or body. -/
theorem tamperedFrameRejected : Obligations.TamperedFrameRejected := by
  intro p payload frame i b _ hck hterm hesc _ h hi hb
  obtain ⟨rfl, -⟩ := encodeFrame_ok h
  have hstuff : stuff p (payload ++ checkBytes p payload) = payload ++ checkBytes p payload := by
    rw [stuff, hesc, if_neg Bool.false_ne_true]
  have htermBytes : termBytes p = [p.term] := if_pos hterm
  have hone : (termBytes p).length = 1 := by rw [htermBytes, List.length_singleton]
  rw [hstuff] at hi hb ⊢
  have hcheck := checkBody_set hck payload (i := i - p.header.length) (b := b)
  generalize payload ++ checkBytes p payload = body at hi hb hcheck ⊢
  rw [List.length_append, List.length_append, hone] at hi ⊢
  rcases Nat.lt_trichotomy i (p.header.length + body.length) with hbefore | hlast | hafter
  · rw [if_neg (by omega)]
    rw [List.getElem?_append_left (by rwa [List.length_append])] at hb
    rw [List.set_append_left _ _ (by rwa [List.length_append])]
    rcases Nat.lt_or_ge i p.header.length with hhead | hpast
    · rw [List.getElem?_append_left hhead] at hb
      rw [List.set_append_left _ _ hhead, decodeFrame_parts List.length_set, if_pos (set_ne_self hhead hb), if_pos hhead]
    · rw [List.getElem?_append_right hpast] at hb
      rw [List.set_append_right _ _ hpast, decodeFrame_parts rfl, if_neg (not_not.mpr rfl), if_neg (by omega), unstuff, hesc,
        if_neg Bool.false_ne_true]
      exact congrArg (· >>= checkPayload .sentinel 0) (hcheck (by omega) hb)
  · subst hlast
    have hbterm : b ≠ p.term := by simpa [htermBytes, eq_comm] using hb
    rw [if_pos rfl]
    exact decodeFrame_unterminated hterm (by simpa [htermBytes] using hbterm) _ _
  · omega

end Sys2Proof.Proofs
end

section
/-! SUPPORT. The codec commands: CKSUM, ENCODE and DECODE end in their issue cycle, in IDLE (40_codec.md R140 to R143). -/

namespace Sys2Proof.Proofs

open Sys2Proof.Machine Sys2Proof.Safety Sys2Proof.Laws

/-- Settles O58: CKSUM has no check, and finishes with the fold. -/
theorem cksumAnswersChecksum : Obligations.CksumAnswersChecksum := fun s psel =>
  ⟨_, rfl, finish_none (some (.cksum psel)) .ok .noError _ (opened s)⟩

/-! ## ENCODE -/

/-- ENCODE of a frame that FBUF has room for stores it from index 0 on, and FBUF past it keeps its bytes. -/
theorem encodeToFbuf_ok {p : Profile} {payload frame : List Byte} (h : encodeFrame p payload = .ok frame)
    (hp : payload.length ≤ Config.pmax) (psel : ProfileSel) {s : State} (hwf : s.fbuf.wf = true) :
    Finishes .ok .noError (if p.ckEn then checksum p payload else 0) .idle none
        { s with flen := (encodeToFbuf psel p payload s).flen, fbuf := (encodeToFbuf psel p payload s).fbuf }
        (encodeToFbuf psel p payload s)
      ∧ (encodeToFbuf psel p payload s).flen.toNat = frame.length
      ∧ ∀ a : Nat, (encodeToFbuf psel p payload s).fbuf.read a =
          if a < frame.length then frame.getD a 0 else s.fbuf.read a := by
  have hlen : frame.length < 2 ^ 16 := (encodeFrame_length_le h hp).trans_lt depths_lt.2
  simp only [encodeToFbuf, h]
  refine ⟨finish_none (some (.encode psel)) _ _ _ _, ?_, fun a => ?_⟩
  · exact (BitVec.toNat_ofNat _ _).trans (Nat.mod_eq_of_lt hlen)
  · exact (read_store s.fbuf 0 frame hwf a).trans (by simp)

/-- A payload that Encode refuses leaves FBUF and FLEN alone. -/
theorem encodeToFbuf_error {p : Profile} {payload : List Byte} {code : ErrCode} (h : encodeFrame p payload = .error code)
    (psel : ProfileSel) (s : State) :
    Finishes .invalidArgument .termCollision 0 .idle none s (encodeToFbuf psel p payload s) := by
  simp only [encodeToFbuf, h, encodeFrame_error p payload code h]
  exact finish_none (some (.encode psel)) _ _ _ _

/-- Settles O56: the profile check, then Encode's two answers. -/
theorem encodeFillsFbuf : Obligations.EncodeFillsFbuf := by
  intro s psel hwf htx
  refine ⟨_, rfl, ?_⟩
  cases hvalid : (s.profile psel).valid with
  | false => exact issue_fails (by simp [firstFailure, checkProfile, hvalid])
  | true =>
    rw [if_neg Bool.noConfusion, issue_passes (by simp [firstFailure, checkProfile, hvalid])]
    split
    · next code h => exact encodeToFbuf_error h psel (opened s)
    · next frame h => exact encodeToFbuf_ok h (by rwa [load_length]) psel hwf

/-! ## DECODE -/

/-- DECODE of a frame that Decode accepts exposes its payload. -/
theorem decodeFromFbuf_ok {p : Profile} {shape : Shape} {len : Byte} {s : State} {payload : List Byte}
    (h : decodeFrame p shape len.toNat s.frameBytes = .ok payload) (psel : ProfileSel) (hwf : s.pbufRx.wf = true) :
    Finishes .ok .noError 0 .idle (some payload) s (decodeFromFbuf psel shape len p s) := by
  simp only [decodeFromFbuf, h]
  exact finish_some (some (.decode psel shape len)) _ _ _ _ _ ((decodeFrame_ok h).1.trans_lt depths_lt.1) hwf

/-- DECODE of a list that Decode turns down answers its code, and exposes nothing. -/
theorem decodeFromFbuf_error {p : Profile} {shape : Shape} {len : Byte} {s : State} {code : ErrCode}
    (h : decodeFrame p shape len.toNat s.frameBytes = .error code) (psel : ProfileSel) :
    Finishes .malformed code 0 .idle none s (decodeFromFbuf psel shape len p s) := by
  simp only [decodeFromFbuf, h]
  exact finish_none (some (.decode psel shape len)) _ _ _ _

/-- DECODE's argument check as R143 lists it. -/
theorem badDecodeShape_iff (p : Profile) (shape : Shape) (len : Byte) :
    badDecodeShape p shape len = true ↔
      shape = .noReply ∨ (shape = .sentinel ∧ p.termEn = false) ∨ (shape = .fixed ∧ Config.pmax < len.toNat) := by
  cases shape <;> simp [badDecodeShape]

/-- Settles O57: the two checks in order, then Decode's two answers. -/
theorem decodeAnswersPayload : Obligations.DecodeAnswersPayload := by
  intro s psel shape len hwf
  refine ⟨_, rfl, ?_⟩
  cases hvalid : (s.profile psel).valid with
  | false => exact issue_fails (by simp [firstFailure, checkProfile, hvalid])
  | true =>
    rw [if_neg Bool.noConfusion]
    split
    · next hshape =>
      rw [← badDecodeShape_iff] at hshape
      exact issue_fails (by simp [firstFailure, checkProfile, hvalid, hshape])
    · next hshape =>
      rw [← badDecodeShape_iff] at hshape
      rw [issue_passes (by simp [firstFailure, checkProfile, hvalid, hshape])]
      split
      · next code h => exact decodeFromFbuf_error (s := opened s) h psel
      · next payload h => exact decodeFromFbuf_ok (s := opened s) h psel hwf

end Sys2Proof.Proofs
end

section
/-! SUPPORT. What one cycle can do to a running command: it goes on, ends, begins to wait or sends a second frame; so STATUS.STATE moves
along its table and the ticks a command has left run down (41_exchange.md R160 to R185). -/

namespace Sys2Proof.Proofs

open Sys2Proof.Machine Sys2Proof.Safety Sys2Proof.Laws

/-! ## The moves of a busy machine -/

/-- What a cycle of a busy machine leads to, as far as STATE, PHASE and DL_CNT of the running command i show it: the command goes on in
its state with the cycle's tick counted, it ends, it begins to wait after its last byte, or VEND sends its second frame. -/
inductive BusyMove (i : Instr) (tick : Bool) (s t : State) : Prop where
  | goesOn (hx : t.xstate = s.xstate) (hp : t.phase = s.phase) (hd : t.dlCnt.toNat + tick.toNat ≤ s.dlCnt.toNat)
  | ends (hb : t.busy = false) (hx : moveAllowed s.xstate t.xstate = true)
  | waits (hs : s.xstate = .commandSent) (hx : t.xstate = .awaitingReply) (hp : t.phase = s.phase)
      (hd : t.dlCnt = BitVec.ofNat 16 (waitTicks i s))
  | sendsAgain (slot : Byte) (hi : i = .vend slot) (hs : s.xstate = .awaitingReply) (hs0 : s.phase = false)
      (hx : t.xstate = .commandSent) (hp : t.phase = true) (hd : t.dlCnt = s.replyTimeout)

/-- The changing fields that `BusyMove` speaks of. -/
def progressOf (s : State) : XState × Bool × Half := (s.xstate, s.phase, s.dlCnt)

theorem busy_of_progressOf {s t : State} (h : progressOf t = progressOf s) : t.busy = s.busy := by
  have hx : t.xstate = s.xstate := congrArg Prod.fst h
  unfold State.busy
  rw [hx]

/-- Of the two ends of a move only STATE, PHASE and DL_CNT matter, and the configuration it starts with. -/
theorem BusyMove.congr {i : Instr} {tick : Bool} {s s' t t' : State} (h : BusyMove i tick s t)
    (hs : progressOf s' = progressOf s) (hc : configOf s' = configOf s) (ht : progressOf t' = progressOf t) :
    BusyMove i tick s' t' := by
  have hbusy := busy_of_progressOf ht
  simp only [progressOf, configOf, Prod.mk.injEq] at hs hc ht
  obtain ⟨hsx, hsp, hsd⟩ := hs
  obtain ⟨htx, htp, htd⟩ := ht
  obtain ⟨-, -, -, hr, hw, -⟩ := hc
  cases h with
  | goesOn hx hp hd => exact .goesOn (by rw [htx, hsx, hx]) (by rw [htp, hsp, hp]) (by rw [htd, hsd]; exact hd)
  | ends hb hx => exact .ends (hbusy.trans hb) (by rw [htx, hsx]; exact hx)
  | waits h0 hx hp hd =>
    have hticks : waitTicks i s' = waitTicks i s := by simp only [waitTicks, hr, hw]
    exact .waits (hsx.trans h0) (htx.trans hx) (by rw [htp, hsp, hp]) (by rw [htd, hd, hticks])
  | sendsAgain slot hi h0 hp0 hx hp hd =>
    exact .sendsAgain slot hi (hsx.trans h0) (hsp.trans hp0) (htx.trans hx) (htp.trans hp) (by rw [htd, hd, hr])

/-- A running command ends in the state of its class (41_exchange.md R170). -/
theorem BusyMove.of_finish {i : Instr} {tick : Bool} {s u : State} {cls : ResultClass} {err : ErrCode} {value : Byte}
    {payload : Option (List Byte)} (hr : ready i s = true) (hm : moveAllowed s.xstate (classState cls) = true) :
    BusyMove i tick s (finish (some i) cls err value payload u) :=
  .ends (finish_not_busy _ _ _ _ _ _) (by rwa [finish_xstate, terminalState_of_ready hr])

/-- Where the configuration is kept, a running command stays the one it is, with what its checks left true. -/
theorem running_of_configOf {i : Instr} {s t : State} (h : configOf t = configOf s) (hc : s.command = some i)
    (hr : ready i s = true) : t.command = some i ∧ ready i t = true := by
  simp only [configOf, Prod.mk.injEq] at h
  obtain ⟨hcmd, h0, h1, ht, -, -, -, ha⟩ := h
  refine ⟨?_, (ready_congr i h0 h1 ht ha).trans hr⟩
  unfold State.command
  rw [hcmd]
  exact hc

/-! ## The engine -/

/-- The last byte sent ends a command whose settle delay is 0 (41_exchange.md R176). -/
theorem txComplete_settled {i : Instr} {s : State} (hc : s.command = some i) (hw : commandWaitMode i = .settle)
    (hz : s.settle = 0) : txComplete s = finish (some i) .ok .noError 0 none { s with flen := 0 } := by
  simp [txComplete, hc, waitMode, hw, hz]

/-- The last byte sent starts the wait of every other command (41_exchange.md R176). -/
theorem txComplete_waits {i : Instr} {s : State} (hc : s.command = some i) (hr : ready i s = true)
    (hw : ¬ (commandWaitMode i = .settle ∧ s.settle = 0)) :
    txComplete s = { s with flen := 0, xstate := .awaitingReply, dlCnt := BitVec.ofNat 16 (waitTicks i s) } := by
  simp only [txComplete, hc, waitMode, hw, if_false, exchangeParams, commandParams_wait hr]

/-- A transition of the engine is a move of the machine; where none ran, the command's progress is what it was. -/
def PartMoves (i : Instr) (s : State) (r : State × Bool) : Prop :=
  (r.2 = false ∧ progressOf r.1 = progressOf s) ∨ (r.2 = true ∧ ∀ tick, BusyMove i tick s r.1)

theorem PartMoves.of_move {i : Instr} {s t : State} (h : ∀ tick, BusyMove i tick s t) : PartMoves i s (t, true) :=
  .inr ⟨rfl, h⟩

theorem PartMoves.of_same {i : Instr} {s t : State} (h : progressOf t = progressOf s) : PartMoves i s (t, false) :=
  .inl ⟨rfl, h⟩

section

variable {i : Instr} {s : State} (hc : s.command = some i) (hr : ready i s = true)

include hc hr

theorem txComplete_moves (hx : s.xstate = .commandSent) (tick : Bool) : BusyMove i tick s (txComplete s) := by
  by_cases hw : commandWaitMode i = .settle ∧ s.settle = 0
  · rw [txComplete_settled hc hw.1 hw.2]
    exact .of_finish hr (by rw [hx]; rfl)
  · rw [txComplete_waits hc hr hw]
    exact .waits hx rfl rfl rfl

theorem txPart_moves (hx : s.xstate = .commandSent) (inp : Inputs) : PartMoves i s (txPart inp s) := by
  rcases txPart_cases inp s with ⟨-, e⟩ | ⟨-, -, -, e⟩ | ⟨-, -, -, e⟩ | ⟨-, -, e⟩ <;> rw [e]
  · rw [txError, hc]
    exact .of_move fun tick => .of_finish hr (by rw [hx]; rfl)
  · obtain ⟨hc', hr'⟩ := running_of_configOf (t := { s with txIdx := s.txIdx + 1 }) rfl hc hr
    exact .of_move fun tick => (txComplete_moves hc' hr' hx tick).congr rfl rfl rfl
  · exact .of_same rfl
  · exact .of_same rfl

omit hc in
/-- A decoded reply ends the command, or VEND sends its second frame. -/
theorem interpret_moves (hx : s.xstate = .awaitingReply) (payload : List Byte) (tick : Bool) :
    BusyMove i tick s (interpret (some i) payload s) := by
  rcases interpret_cases (some i) payload s with ⟨value, e⟩ | ⟨value, -, e⟩ | ⟨slot, -, -, e⟩ | ⟨slot, bitmap, hc, hp, -, -, e⟩ <;>
    rw [e]
  · exact .of_finish hr (by rw [hx]; rfl)
  · exact .of_finish hr (by rw [hx]; rfl)
  · exact .of_finish hr (by rw [hx]; rfl)
  · exact .sendsAgain slot (Option.some.inj hc) hx hp rfl rfl rfl

/-- A received byte is stored, or dropped, or discarded with its buffer, or it completes a reply or ends the command. -/
theorem rxByte_moves (hx : s.xstate = .awaitingReply) (b : Byte) : PartMoves i s (rxByte b s) := by
  obtain ⟨-, hr'⟩ := running_of_configOf (t := appendByte b s) rfl hc hr
  unfold rxByte
  split
  · rcases replyByte_cases b s with ⟨payload, -, e⟩ | ⟨code, e, -⟩ | ⟨-, e⟩ <;> rw [e]
    · rw [hc]
      exact .of_move fun tick => (interpret_moves hr' hx payload tick).congr rfl rfl rfl
    · rw [hc]
      exact .of_move fun tick => .of_finish hr (by rw [hx]; rfl)
    · exact .of_same rfl
  · exact .of_same rfl
  · rcases swipeByte_cases b s with ⟨card, -, e⟩ | e | ⟨-, e⟩ <;> rw [e]
    · rw [hc]
      exact .of_move fun tick => .of_finish hr (by rw [hx]; rfl)
    · exact .of_same rfl
    · exact .of_same rfl

omit hc hr in
theorem progressOf_dropRx (rx : Option Byte) (s : State) : progressOf (dropRx rx s) = progressOf s := by cases rx <;> rfl

theorem enginePart_moves (hb : s.busy = true) (inp : Inputs) : PartMoves i s (enginePart inp s) := by
  unfold enginePart
  rcases (busy_iff s).mp hb with hx | hx <;> simp only [hx]
  · rcases txPart_moves hc hr hx inp with ⟨hf, hp⟩ | ⟨hf, hm⟩
    · exact .inl ⟨hf, (progressOf_dropRx _ _).trans hp⟩
    · exact .inr ⟨hf, fun tick => (hm tick).congr rfl rfl (progressOf_dropRx _ _)⟩
  · cases inp.rx with
    | none => exact .of_same rfl
    | some b => exact rxByte_moves hc hr hx b

/-- A tick counts the deadline down by one, or ends the command (41_exchange.md R178). -/
theorem countTick_moves (hb : s.busy = true) : BusyMove i true s (countTick s) := by
  rcases countTick_cases s with ⟨hlt, e⟩ | ⟨-, e⟩ <;> rw [e]
  · refine .goesOn rfl rfl ?_
    show (s.dlCnt - 1).toNat + 1 ≤ _
    bv_omega
  · have hc0 : ({ s with dlCnt := 0 } : State).command = some i := hc
    rcases expire_cases { s with dlCnt := 0 } with ⟨hn, -⟩ | ⟨hx, e⟩ | ⟨hx, -, e⟩ | ⟨hx, -, e⟩
    · exact absurd (hb.symm.trans hn) (by simp)
    all_goals
      have hx : s.xstate = _ := hx
      rw [e, hc0]
      exact .of_finish hr (by rw [hx]; rfl)

/-- What the engine does to a running command in one cycle: its transition, or else the count of the tick. -/
theorem engineCycle_moves (hb : s.busy = true) (inp : Inputs) : BusyMove i inp.tick s (engineCycle inp s) := by
  have hcfg := configOf_enginePart inp s
  unfold engineCycle
  rcases enginePart_moves hc hr hb inp with ⟨hf, hp⟩ | ⟨hf, hm⟩
  · rw [hf, hb]
    cases inp.tick with
    | false =>
      simp only [progressOf, Prod.mk.injEq] at hp
      obtain ⟨hx, hph, hd⟩ := hp
      exact .goesOn hx hph (Nat.le_of_eq (congrArg BitVec.toNat hd))
    | true =>
      obtain ⟨hc', hr'⟩ := running_of_configOf hcfg hc hr
      exact (countTick_moves hc' hr' ((busy_of_progressOf hp).trans hb)).congr hp.symm hcfg.symm rfl
  · rw [hf, Bool.not_true, Bool.and_false, if_neg Bool.false_ne_true]
    exact hm inp.tick

end

/-! ## The whole cycle -/

theorem progressOf_ctrlClears (bus : BusAccess) (s : State) : progressOf (ctrlClears bus s) = progressOf s := by
  obtain ⟨keepDone, keepFlags, e⟩ := ctrlClears_cases bus s
  rw [e]; rfl

/-- No access to a busy machine touches the running command's progress. -/
theorem progressOf_hostAccess_busy {bus : BusAccess} {s t : State} (h : hostAccess true bus s = .next t) :
    progressOf t = progressOf s := by
  rcases hostAccess_cases h with rfl | rfl | rfl | ⟨-, rfl⟩ | ⟨v, rfl⟩ | ⟨n, -, rfl⟩ | ⟨i, b, -, rfl⟩ | ⟨⟨⟩, -⟩
    | ⟨⟨⟩, -⟩ | ⟨⟨⟩, -⟩ | ⟨⟨⟩, -⟩ | ⟨⟨⟩, -⟩
  case inr.inr.inr.inr.inl => rw [ctrlLengths_eq]; rfl
  all_goals rfl

/-- What a cycle without reset does to a running command is what the engine does. -/
theorem clockCycle_moves {i : Instr} {s t : State} {inp : Inputs} (hc : s.command = some i) (hr : ready i s = true)
    (hb : s.busy = true) (hrst : inp.rst = false) (h : clockCycle inp s = .next t) : BusyMove i inp.tick s t := by
  rw [clockCycle_of_not_reset hrst, hb] at h
  have hp := progressOf_ctrlClears inp.bus (begun inp s)
  have hcfg := configOf_ctrlClears inp.bus (begun inp s)
  obtain ⟨hc', hr'⟩ := running_of_configOf hcfg hc hr
  exact (engineCycle_moves hc' hr' ((busy_of_progressOf hp).trans hb) inp).congr hp.symm hcfg.symm (progressOf_hostAccess_busy h)

/-! ## STATUS.STATE -/

/-- The states a command can be issued into (41_exchange.md R163 to R168, R170). -/
def Issuable (x : XState) : Prop := x = .idle ∨ x = .commandSent ∨ x = .awaitingReply

/-- A failing check ends a command in IDLE; so an issue goes as its start goes. -/
theorem issue_xstate {i : Instr} {checks : List (Bool × ErrCode)} {start : State → State} {s : State}
    (h : Issuable (start (opened s)).xstate) : Issuable (issue i checks start s).xstate := by
  rcases issue_cases i checks start s with ⟨code, -, e⟩ | ⟨-, e⟩ <;> rw [e]
  · exact .inl (terminalState_invalid (some i))
  · exact h

/-- A codec command ends in IDLE, AWAIT_SWIPE listens, every other command sends. -/
theorem exec_xstate {i : Instr} {s t : State} (h : exec i s = .next t) : Issuable t.xstate := by
  cases i <;> (cases h; refine issue_xstate ?_)
  case encode => unfold encodeToFbuf; split <;> exact .inl rfl
  case decode => unfold decodeFromFbuf; split <;> exact .inl rfl
  case cksum => exact .inl rfl
  case awaitSwipe => exact .inr (.inr rfl)
  all_goals exact .inr (.inl rfl)

/-- A machine that is not busy keeps its state, or an access issues a command (41_exchange.md R162). -/
theorem hostAccess_idle_xstate {bus : BusAccess} {s t : State} (h : hostAccess false bus s = .next t) :
    t.xstate = s.xstate ∨ Issuable t.xstate := by
  rcases hostAccess_cases h with rfl | rfl | rfl | ⟨-, rfl⟩ | ⟨v, rfl⟩ | ⟨n, -, rfl⟩ | ⟨i, b, -, rfl⟩ | ⟨-, n, -, rfl⟩
    | ⟨-, i, b, -, rfl⟩ | ⟨-, x, rfl⟩ | ⟨-, v, i, -, he⟩ | ⟨-, v, e, -, rfl⟩
  case inr.inr.inr.inr.inl => rw [ctrlLengths_eq]; exact .inl rfl
  case inr.inr.inr.inr.inr.inr.inr.inr.inr.inr.inl => exact .inr (exec_xstate he)
  case inr.inr.inr.inr.inr.inr.inr.inr.inr.inr.inr => exact .inr (.inl rfl)
  all_goals exact .inl rfl

theorem moveAllowed_of_not_busy {s : State} {y : XState} (hb : s.busy = false) (h : y = s.xstate ∨ Issuable y) :
    moveAllowed s.xstate y = true := by
  have hn := mt (busy_iff s).mpr (by simp [hb])
  cases hx : s.xstate with
  | commandSent => exact absurd (.inl hx) hn
  | awaitingReply => exact absurd (.inr hx) hn
  | _ => rw [hx] at h; rcases h with rfl | rfl | rfl | rfl <;> rfl

theorem moveAllowed_of_busyMove {i : Instr} {tick : Bool} {s t : State} (hb : s.busy = true) (h : BusyMove i tick s t) :
    moveAllowed s.xstate t.xstate = true := by
  cases h with
  | goesOn hx => rw [hx]; rcases (busy_iff s).mp hb with hs | hs <;> rw [hs] <;> rfl
  | ends _ hx => exact hx
  | waits hs hx => rw [hs, hx]; rfl
  | sendsAgain _ _ hs _ hx => rw [hs, hx]; rfl

/-- Settles O30: the engine's moves where a command runs, and the states a command is issued into where none does. -/
theorem stateMovesByTable : Obligations.StateMovesByTable := by
  intro s t inp hinv hrst h
  cases hb : s.busy with
  | true =>
    obtain ⟨i, hc, hr⟩ := hinv.running hb
    exact moveAllowed_of_busyMove hb (clockCycle_moves hc hr hb hrst h)
  | false =>
    rw [clockCycle_of_not_reset hrst, hb] at h
    have hp := progressOf_ctrlClears inp.bus (begun inp s)
    rw [engineCycle_not_busy _ _ ((busy_of_progressOf hp).trans hb)] at h
    have hx : (dropRx inp.rx (ctrlClears inp.bus (begun inp s))).xstate = s.xstate :=
      (dropRx_xstate _ _).trans (congrArg Prod.fst hp)
    exact moveAllowed_of_not_busy hb (hx ▸ hostAccess_idle_xstate h)

/-! ## The ticks left -/

theorem ofNat_toNat_le (n : Nat) : (BitVec.ofNat 16 n).toNat ≤ n := by
  rw [BitVec.toNat_ofNat]; exact Nat.mod_le _ _

/-- A move that does not end the command leaves it fewer ticks by the one that the cycle brings (41_exchange.md R185). -/
theorem ticksLeft_of_busyMove {i : Instr} {tick : Bool} {s t : State} (hb : s.busy = true) (hd : s.dlCnt ≠ 0)
    (hc : configOf t = configOf s) (h : BusyMove i tick s t) :
    t.busy = false ∨ ticksLeft i t + tick.toNat ≤ ticksLeft i s := by
  have hpos : tick.toNat ≤ s.dlCnt.toNat := by
    have := tick.toNat_le
    bv_omega
  simp only [configOf, Prod.mk.injEq] at hc
  obtain ⟨-, -, -, hr, hw, -⟩ := hc
  have hwait : waitTicks i t = waitTicks i s := by simp only [waitTicks, hr, hw]
  have hsecond (hp : t.phase = s.phase) : secondExchange i t = secondExchange i s := by
    simp only [secondExchange, hp, hr]
  cases h with
  | goesOn hx hp hdl =>
    refine .inr ?_
    simp only [ticksLeft, hx, hwait, hsecond hp]
    rcases (busy_iff s).mp hb with hs | hs <;> simp only [hs] <;> omega
  | ends hbt => exact .inl hbt
  | waits hs hx hp hdl =>
    have := ofNat_toNat_le (waitTicks i s)
    simp only [ticksLeft, hs, hx, hsecond hp, hdl]
    omega
  | sendsAgain slot hi hs hs0 hx hp hdl =>
    subst hi
    simp only [ticksLeft, hs, hx, hdl, secondExchange, waitTicks, hp, hs0, hr, Bool.false_eq_true, if_true, if_false]
    omega

/-- A command starts with a full deadline for each of its exchanges, the listener with one (41_exchange.md R185). -/
theorem ticksLeft_exec {i : Instr} {s t : State} (h : exec i s = .next t) (hb : t.busy = true) :
    (i = .awaitSwipe ∧ ticksLeft i t = s.replyTimeout.toNat)
      ∨ (i ≠ .awaitSwipe ∧ ticksLeft i t = s.replyTimeout.toNat + waitTicks i s + secondExchange i (opened s)) := by
  have ended {cls err value payload u} : (finish (some i) cls err value payload u).busy ≠ true := by simp [finish_not_busy]
  cases exec_issued h with
  | finished => exact absurd hb ended
  | encoded => exact absurd hb ended
  | sends hi => exact .inr ⟨hi, rfl⟩
  | listens hi => subst hi; exact .inl ⟨rfl, rfl⟩

/-- Settles O34: every move but the end takes the cycle's tick off, and an issue starts with full deadlines. -/
theorem ticksLeftRunDown : Obligations.TicksLeftRunDown := by
  constructor
  · intro s t inp i hinv hrst hb hc h
    obtain ⟨j, hj, hr⟩ := hinv.running hb
    obtain rfl : i = j := Option.some.inj (hc.symm.trans hj)
    have hcfg : configOf t = configOf s := by
      simpa only [configOf, Prod.mk.injEq] using busyKeepsConfiguration s t inp hb hrst h
    rw [flag_share, Nat.one_mul]
    exact (ticksLeft_of_busyMove hb (hinv.deadline hb) hcfg (clockCycle_moves hc hr hb hrst h)).imp_right
      fun hle => ⟨(running_of_configOf hcfg hc hr).1, hle⟩
  · intro s t i h hbt _
    rcases ticksLeft_exec h hbt with ⟨rfl, e⟩ | ⟨hi, e⟩ <;> rw [e]
    cases i with
    | vend slot => simp only [waitTicks, secondExchange, opened, Bool.false_eq_true, if_false]; omega
    | awaitSwipe => exact absurd rfl hi
    | _ => exact Nat.le_refl _

end Sys2Proof.Proofs
end

section
/-! SUPPORT. The cycle around the engine: every cycle answers a next state, an idle machine does nothing but what the host has it do, a byte
that no exchange waits for is dropped, and what a busy cycle without a received byte or a host access does (41_exchange.md R160). -/

namespace Sys2Proof.Proofs

open Sys2Proof.Machine Sys2Proof.Safety Sys2Proof.Laws

/-! ## Every cycle goes on -/

/-- Writing CMD rejects, issues or finishes (41_exchange.md R163, 30_encoding.md R98). -/
theorem cmdWrite_next (busy : Bool) (v : Word) (s : State) : ∃ t, cmdWrite busy v s = .next t := by
  unfold cmdWrite
  split
  · exact ⟨_, rfl⟩
  · split
    · exact exec_next _ _
    · exact ⟨_, rfl⟩

theorem hostAccess_next (busy : Bool) (bus : BusAccess) (s : State) : ∃ t, hostAccess busy bus s = .next t := by
  cases bus with
  | idle | read _ => exact ⟨_, rfl⟩
  | write a v =>
    cases ht : targetOf a with
    | none => exact ⟨_, hostAccess_unmapped ht busy v s⟩
    | some target =>
      rw [hostAccess_mapped ht]
      cases target with
      | cmd => exact cmdWrite_next busy v s
      | _ => exact ⟨_, rfl⟩

/-- Settles O27: the only part of a cycle that could stop is the host's access. -/
theorem everyStepGoesOn : Obligations.EveryStepGoesOn := by
  intro s
  unfold step clockCycle
  split
  · exact ⟨_, rfl⟩
  · exact hostAccess_next _ _ _

/-! ## A machine that is not busy -/

/-- Settles O38: without a CTRL write nothing is cleared, and the engine of an idle machine only drops a byte. -/
theorem idleDoesNothing : Obligations.IdleDoesNothing := by
  intro s inp hrst hb hx hbus
  rw [clockCycle_of_not_reset hrst, hbus, ctrlClears_of_not_ctrl .idle _ (by rintro v ⟨⟩),
    engineCycle_not_busy inp (begun inp s) hb, hx]
  rfl

/-- A CMD write to a machine that is not busy, in a cycle that may bring a byte too (41_exchange.md R160, R163). -/
theorem clockCycle_cmdWrite_rx {inp : Inputs} {s : State} {v : Word} (hrst : inp.rst = false) (hb : s.busy = false)
    (hw : inp.bus = .write 0x010 v) : clockCycle inp s = cmdWrite false v (dropRx inp.rx (begun inp s)) := by
  rw [clockCycle_of_not_reset hrst, hw, ctrlClears_of_not_ctrl _ _ (by rintro u ⟨⟩),
    engineCycle_not_busy inp (begun inp s) hb, hb]
  exact hostAccess_mapped (target := .cmd) rfl _ _ _

theorem dropRx_eq (rx : Option Byte) (s : State) : dropRx rx s = { s with rxDrop := s.rxDrop || rx.isSome } := by
  cases rx <;> simp [dropRx, dropByte]

/-- Settles O26: the CMD write latches the word on the state the engine leaves, and issues its command. -/
theorem stepRunsCommand : Obligations.StepRunsCommand := by
  rintro s inp v i rfl hrst hw hb hv
  refine (clockCycle_cmdWrite_rx hrst hb hw).trans ?_
  rw [dropRx_eq]
  simp only [cmdWrite, Bool.false_eq_true, if_false, hv]
  rfl

/-! ## A byte that no exchange waits for -/

theorem countTick_dropByte (s : State) : countTick (dropByte s) = dropByte (countTick s) := by
  obtain ⟨fin, h⟩ := countTick_flags s
  calc countTick (dropByte s)
    _ = withFlags (s.done || fin) true s.cmdRej s.busErr s.wrRej s.swipeDisc (countTick s) := h _ true _ _ _ _
    _ = dropByte (withFlags (s.done || fin) s.rxDrop s.cmdRej s.busErr s.wrRej s.swipeDisc (countTick s)) := rfl
    _ = dropByte (countTick s) := congrArg dropByte (h _ s.rxDrop _ _ _ _).symm

/-- A byte that is not awaited is dropped beside whatever else the engine does (41_exchange.md R180). -/
theorem enginePart_stray {s : State} (h : s.xstate ≠ .awaitingReply ∨ waitMode s.command = .settle) (inp : Inputs) (b : Byte) :
    enginePart { inp with rx := some b } s
      = (dropByte (enginePart { inp with rx := none } s).1, (enginePart { inp with rx := none } s).2) := by
  unfold enginePart
  cases hx : s.xstate with
  | awaitingReply =>
    have hw : waitMode s.command = .settle := h.resolve_left (not_not.mpr hx)
    simp only [rxByte, hw]
  | _ => rfl

theorem engineCycle_stray {s : State} (h : s.xstate ≠ .awaitingReply ∨ waitMode s.command = .settle) (inp : Inputs) (b : Byte) :
    engineCycle { inp with rx := some b } s = dropByte (engineCycle { inp with rx := none } s) := by
  unfold engineCycle
  rw [enginePart_stray h]
  dsimp only
  split
  · exact countTick_dropByte _
  · rfl

/-- Issuing a command does not read RX_DROP, if starting it does not. -/
theorem issue_dropByte {i : Instr} {checks : List (Bool × ErrCode)} {start : State → State}
    (hs : ∀ x, start (dropByte x) = dropByte (start x)) (s : State) :
    issue i checks start (dropByte s) = dropByte (issue i checks start s) := by
  unfold issue
  split
  · rfl
  · exact hs (accept s)

theorem exec_dropByte {i : Instr} {s t : State} (h : exec i s = .next t) : exec i (dropByte s) = .next (dropByte t) := by
  cases i <;> (cases h; refine congrArg Host.Outcome.next (issue_dropByte (fun x => ?_) s))
  case encode => unfold encodeToFbuf; split <;> rfl
  case decode => unfold decodeFromFbuf; rw [show (dropByte x).frameBytes = x.frameBytes from rfl]; split <;> rfl
  all_goals rfl

theorem cmdWrite_dropByte {busy : Bool} {v : Word} {s t : State} (h : cmdWrite busy v s = .next t) :
    cmdWrite busy v (dropByte s) = .next (dropByte t) := by
  unfold cmdWrite at h ⊢
  split at h
  · next hb => cases h; rw [if_pos hb]; rfl
  · next hb =>
    rw [if_neg hb]
    split at h
    · exact exec_dropByte h
    · cases h; rfl

theorem unlessBusy_dropByte {store : State → State} {s : State} (hs : store (dropByte s) = dropByte (store s)) (busy : Bool) :
    unlessBusy busy store (dropByte s) = dropByte (unlessBusy busy store s) := by
  cases busy with
  | true => rfl
  | false => exact hs

theorem writeTxlen_dropByte (v : Word) (s : State) : writeTxlen v (dropByte s) = dropByte (writeTxlen v s) := by
  unfold writeTxlen
  split <;> rfl

theorem writeFlen_dropByte (v : Word) (s : State) : writeFlen v (dropByte s) = dropByte (writeFlen v s) := by
  unfold writeFlen
  split <;> rfl

/-- No access to the host port reads RX_DROP to change anything. -/
theorem hostAccess_dropByte {busy : Bool} {bus : BusAccess} {s t : State} (h : hostAccess busy bus s = .next t) :
    hostAccess busy bus (dropByte s) = .next (dropByte t) := by
  cases bus with
  | idle | read _ => cases h; rfl
  | write a v =>
    cases ht : targetOf a with
    | none => rw [hostAccess_unmapped ht] at h ⊢; cases h; rfl
    | some target =>
      rw [hostAccess_mapped ht] at h ⊢
      cases target with
      | cmd => exact cmdWrite_dropByte h
      | ctrl => cases h; simp only [writeTarget, ctrlLengths_eq]; rfl
      | txlen => cases h; exact congrArg Host.Outcome.next (writeTxlen_dropByte v s)
      | flen => cases h; exact congrArg Host.Outcome.next (unlessBusy_dropByte (writeFlen_dropByte v s) busy)
      | cfg | replyTimeout | settle | p0Frame | p0Code | p1Frame | p1Code | fbuf _ =>
        cases h; exact congrArg Host.Outcome.next (unlessBusy_dropByte (by rfl) busy)
      | _ => cases h; rfl

/-- Settles O37: the dropped byte sets RX_DROP beside whatever else the engine and the host do, and neither reads it. -/
theorem strayByteDropped : Obligations.StrayByteDropped := by
  intro s t u inp b hrst hstray ht hu
  rw [clockCycle_of_not_reset (inp := { inp with rx := some b }) hrst] at ht
  rw [clockCycle_of_not_reset (inp := { inp with rx := none }) hrst] at hu
  have hcmd : (ctrlClears inp.bus (begun inp s)).command = s.command :=
    congrArg commandOf (congrArg Prod.fst (configOf_ctrlClears inp.bus (begun inp s)))
  have hx : (ctrlClears inp.bus (begun inp s)).xstate = s.xstate :=
    congrArg Prod.fst (progressOf_ctrlClears inp.bus (begun inp s))
  have he := engineCycle_stray (s := ctrlClears inp.bus (begun inp s)) (by rwa [hx, hcmd]) inp b
  exact eq_of_next ((hostAccess_dropByte hu).symm.trans ((congrArg (hostAccess s.busy inp.bus) he.symm).trans ht))

/-! ## A busy cycle that brings no byte and no access -/

theorem isCodec_of_ready {i : Instr} {s : State} (h : ready i s = true) : isCodec i = false := by
  cases i with
  | encode _ | decode _ _ _ | cksum _ => cases h
  | _ => rfl

/-- A command that is no codec command ends in the state of its class (41_exchange.md R170). -/
theorem finishes_of_not_codec {i : Instr} (hi : isCodec i = false) (cls : ResultClass) (err : ErrCode) (value : Byte) (s : State) :
    Finishes cls err value (classState cls) none s (finish (some i) cls err value none s) := by
  have ht : terminalState cls (some i) = classState cls := by simp [terminalState, hi]
  exact ht ▸ finish_none (some i) cls err value s

/-! ### The transmitter's cases (41_exchange.md R174, R175, R183) -/

theorem txPart_error {inp : Inputs} (he : inp.txErr = true) (s : State) : txPart inp s = (txError s, true) := if_pos he

theorem txPart_more {inp : Inputs} {s : State} (he : inp.txErr = false) (hready : inp.txReady = true)
    (hn : s.txIdx + 1 ≠ s.flen) : txPart inp s = ({ s with txIdx := s.txIdx + 1 }, false) := by
  simp only [txPart, txHandoff, he, hready, hn, Bool.false_eq_true, if_false, if_true]

theorem txPart_last {inp : Inputs} {s : State} (he : inp.txErr = false) (hready : inp.txReady = true)
    (hl : s.txIdx + 1 = s.flen) : txPart inp s = (txComplete { s with txIdx := s.txIdx + 1 }, true) := by
  simp only [txPart, txHandoff, he, hready, hl, Bool.false_eq_true, if_false, if_true]

theorem txPart_idle {inp : Inputs} (he : inp.txErr = false) (hready : inp.txReady = false) (s : State) :
    txPart inp s = (s, false) := by
  simp [txPart, he, hready]

section

variable {s : State} {inp : Inputs} (hrst : inp.rst = false) (hbus : inp.bus = .idle) (hrx : inp.rx = none)

include hrst hbus hrx

/-- A sending cycle in which the transmitter runs no transition counts its tick on the state t that the transmitter leaves. -/
theorem clockCycle_send_counts {i : Instr} {t : State} (hs : s.xstate = .commandSent) (e : txPart inp (begun inp s) = (t, false))
    (ht : t.xstate = .commandSent) (hc : t.command = some i) (hi : isCodec i = false) :
    ∃ u, clockCycle inp s = .next u ∧ TickCounted inp.tick i t u := by
  refine ⟨_, clockCycle_send hrst hbus hrx hs, ?_⟩
  rw [e, Bool.not_false, Bool.and_true]
  exact tickCounted inp.tick ((busy_iff t).mpr (.inl ht)) hc hi

/-- A sending cycle in which the transmitter runs a transition ends as the transmitter leaves it, its tick not counted. -/
theorem clockCycle_send_fires {t : State} (hs : s.xstate = .commandSent) (e : txPart inp (begun inp s) = (t, true)) :
    clockCycle inp s = .next t := by
  rw [clockCycle_send hrst hbus hrx hs, e, Bool.not_true, Bool.and_false, if_neg Bool.false_ne_true]

/-- A busy cycle without received byte, handshake or error counts its tick (41_exchange.md R160, R178). -/
theorem clockCycle_counts {i : Instr} (hc : s.command = some i) (hi : isCodec i = false)
    (hs : s.xstate = .awaitingReply ∨ (s.xstate = .commandSent ∧ inp.txErr = false ∧ inp.txReady = false)) :
    ∃ t, clockCycle inp s = .next t ∧ TickCounted inp.tick i (begun inp s) t := by
  rcases hs with hs | ⟨hs, he, hready⟩
  · exact ⟨_, clockCycle_await hrst hbus hrx hs, tickCounted inp.tick ((busy_iff _).mpr (.inr hs)) hc hi⟩
  · exact clockCycle_send_counts hrst hbus hrx hs (txPart_idle he hready _) hs hc hi

end

/-- Settles O39: a transition of the transmitter ends the cycle, otherwise its tick is counted. -/
theorem transmitHandsOff : Obligations.TransmitHandsOff := by
  intro s inp i hrst hbus hrx hs hc hr _
  have hi := isCodec_of_ready hr
  have fires {t : State} (e : txPart inp (begun inp s) = (t, true)) := clockCycle_send_fires hrst hbus hrx hs e
  obtain ⟨hc', hr'⟩ := running_of_configOf (t := { begun inp s with txIdx := s.txIdx + 1 }) rfl hc hr
  refine ⟨fun he => ?_, fun he hready => ⟨fun hn => ?_, fun hl hw hz => ?_, fun hl hw => ?_⟩, fun he hready => ?_⟩
  · refine ⟨_, fires (txPart_error he _), ?_⟩
    rw [txError, show (begun inp s).command = some i from hc]
    exact finishes_of_not_codec hi _ _ _ _
  · exact clockCycle_send_counts hrst hbus hrx hs (txPart_more he hready hn) hs hc hi
  · refine ⟨_, (fires (txPart_last he hready hl)).trans (congrArg _ (txComplete_settled hc' hw hz)), ?_⟩
    exact finishes_of_not_codec hi _ _ _ _
  · have hw' : ¬ (commandWaitMode i = .settle ∧ s.settle = 0) := by tauto
    exact (fires (txPart_last he hready hl)).trans (congrArg _ (txComplete_waits hc' hr' hw'))
  · exact clockCycle_counts hrst hbus hrx hc hi (.inr ⟨hs, he, hready⟩)

/-- The last tick ends the command, by state and wait mode (41_exchange.md R178). -/
theorem tickCounted_expires {i : Instr} {s t : State} (h : TickCounted true i s t) (hle : s.dlCnt.toNat ≤ 1) :
    (s.xstate = .commandSent → Finishes .ioFailure .shortWrite (commandFailValue i) .fatal none { s with dlCnt := 0 } t)
      ∧ (s.xstate = .awaitingReply → commandWaitMode i = .settle →
          Finishes .ok .noError 0 .repliedOk none { s with dlCnt := 0 } t)
      ∧ (s.xstate = .awaitingReply → commandWaitMode i ≠ .settle →
          Finishes .timedOut .noError (commandFailValue i) .timedOut none { s with dlCnt := 0 } t) := by
  rw [TickCounted, if_neg Bool.noConfusion, if_neg (Nat.not_lt.mpr hle)] at h
  split at h
  · next hs => exact ⟨fun _ => h, fun hx => (nomatch hs.symm.trans hx), fun hx => (nomatch hs.symm.trans hx)⟩
  · next hs =>
    refine ⟨fun hx => (nomatch hs.symm.trans hx), fun _ hw => ?_, fun _ hw => ?_⟩
    · rwa [if_pos hw] at h
    · rwa [if_neg hw] at h
  all_goals exact h.elim

/-- Settles O40: such a cycle counts its tick, and nothing else. -/
theorem tickCountsDeadline : Obligations.TickCountsDeadline := by
  intro s inp i hrst hbus hrx hc hr hs
  obtain ⟨t, ht, h⟩ := clockCycle_counts hrst hbus hrx hc (isCodec_of_ready hr) hs
  rw [ht]
  refine ⟨fun htick => ?_, fun htick hlt => ?_, fun htick hle => ⟨t, rfl, ?_⟩⟩ <;> rw [htick] at h
  · exact congrArg _ h
  · rw [TickCounted, if_neg Bool.noConfusion, if_pos (by exact hlt)] at h
    exact congrArg _ h
  · exact tickCounted_expires h hle

end Sys2Proof.Proofs
end

section
/-! SUPPORT. The cycle that brings a byte to a machine awaiting a reply: the reply of a command byte by byte, and the swipe listener
(41_exchange.md R179, R181; 43_stripe.md R237, R238). -/

namespace Sys2Proof.Proofs

open Sys2Proof.Machine Sys2Proof.Safety Sys2Proof.Laws

/-- A byte that runs no transition leaves the machine t, and the cycle's tick is counted on it. -/
theorem clockCycle_received_counts {inp : Inputs} {b : Byte} {s t : State} {i : Instr} (h : bringsByte inp b s)
    (e : rxByte b (begun inp s) = (t, false)) (ht : t.busy = true) (hc : t.command = some i) (hi : isCodec i = false) : ∃ u, clockCycle inp s = .next u ∧ TickCounted inp.tick i t u :=
  ⟨_, clockCycle_received h e, tickCounted inp.tick ht hc hi⟩

/-! ## A reply -/

section

variable {inp : Inputs} {b : Byte} {s : State} {i : Instr} (h : bringsByte inp b s) (hc : s.command = some i)
  (hw : commandWaitMode i = .reply)

/-- The delimiter finds the end of the reply at the byte b. -/
def completesReply (i : Instr) (b : Byte) (s : State) : Bool :=
  frameComplete (commandParams i s.phase s).profile (commandParams i s.phase s).shape (commandParams i s.phase s).n
    (s.frameBytes ++ [b])

/-- What Decode makes of the reply up to the byte b. -/
def decodesReply (i : Instr) (b : Byte) (s : State) : Except ErrCode (List Byte) :=
  decodeFrame (commandParams i s.phase s).profile (commandParams i s.phase s).shape (commandParams i s.phase s).n
    (s.frameBytes ++ [b])

include h hc hw

/-- A reply that decodes is interpreted, and the cycle's tick is not counted (41_exchange.md R181). -/
theorem clockCycle_reply_payload {payload : List Byte} (hf : completesReply i b s = true)
    (hd : decodesReply i b s = .ok payload) :
    clockCycle inp s = .next (interpret (some i) payload (received inp b s)) := by
  unfold completesReply at hf
  unfold decodesReply at hd
  have e : rxByte b (begun inp s) = (interpret (some i) payload (received inp b s), true) := by
    simp only [rxByte_reply hc hw, hf, hd, if_true]
  exact clockCycle_received h e

/-- A reply that does not decode ends the command with the decoder's code. -/
theorem clockCycle_reply_error {code : ErrCode} (hi : isCodec i = false) (hf : completesReply i b s = true)
    (hd : decodesReply i b s = .error code) : ∃ t, clockCycle inp s = .next t
      ∧ Finishes .malformed code (commandFailValue i) .repliedError none (received inp b s) t := by
  unfold completesReply at hf
  unfold decodesReply at hd
  have e : rxByte b (begun inp s) = (finish (some i) .malformed code (commandFailValue i) none (received inp b s), true) := by
    simp only [rxByte_reply hc hw, hf, hd, if_true]
  exact ⟨_, clockCycle_received h e, finishes_of_not_codec hi _ _ _ _⟩

/-- A byte that fills the buffer without completing the reply ends the command. -/
theorem clockCycle_reply_full (hi : isCodec i = false) (hf : completesReply i b s = false)
    (hn : s.flen.toNat + 1 = Config.fbufDepth) : ∃ t, clockCycle inp s = .next t
      ∧ Finishes .malformed (budgetError (commandParams i s.phase s).profile) (commandFailValue i) .repliedError none
          (received inp b s) t := by
  unfold completesReply at hf
  have e : rxByte b (begun inp s) = (finish (some i) .malformed (budgetError (commandParams i s.phase s).profile)
      (commandFailValue i) none (received inp b s), true) := by
    simp only [rxByte_reply hc hw, hf, hn, Bool.false_eq_true, if_false, if_true]
  exact ⟨_, clockCycle_received h e, finishes_of_not_codec hi _ _ _ _⟩

/-- Any other byte is stored, and the cycle's tick is counted. -/
theorem clockCycle_reply_more (hi : isCodec i = false) (hf : completesReply i b s = false)
    (hn : s.flen.toNat + 1 ≠ Config.fbufDepth) :
    ∃ t, clockCycle inp s = .next t ∧ TickCounted inp.tick i (received inp b s) t := by
  unfold completesReply at hf
  have e : rxByte b (begun inp s) = (received inp b s, false) := by
    simp only [rxByte_reply hc hw, hf, hn, Bool.false_eq_true, if_false]
  exact clockCycle_received_counts h e (received_busy h) hc hi

end

theorem commandWaitMode_exchange {psel : ProfileSel} {shape : Shape} {len : Byte} (h : shape ≠ .noReply) :
    commandWaitMode (.exchange psel shape len) = .reply := by
  cases shape with
  | noReply => exact absurd rfl h
  | _ => rfl

/-- Settles O46, by the four things a reply's byte can do. -/
theorem exchangeReply : Obligations.ExchangeReply := by
  intro s inp b psel shape len h hwf hc hshape
  have hw := commandWaitMode_exchange (psel := psel) (len := len) hshape
  split
  · next hf =>
    split
    · next payload hd =>
      exact ⟨_, clockCycle_reply_payload h hc hw hf hd, finish_some _ _ _ _ _ _ (decodeFrame_length hd) hwf⟩
    · next code hd => exact clockCycle_reply_error h hc hw rfl hf hd
  · next hf =>
    rw [Bool.not_eq_true] at hf
    split
    · next hn => exact clockCycle_reply_full h hc hw rfl hf hn
    · next hn => exact clockCycle_reply_more h hc hw rfl hf hn

/-- The reply a vending command waits for: a FIXED one under P0, of the bytes its row gives (41_exchange.md R167). -/
theorem replyLength_params {i : Instr} {ph : Bool} {n : Nat} (h : replyLength i ph = some n) (s : State) :
    (commandParams i ph s).profile = s.p0 ∧ (commandParams i ph s).shape = .fixed ∧ (commandParams i ph s).n = n
      ∧ commandWaitMode i = .reply ∧ isCodec i = false := by
  cases i with
  | queryInv | hasSoda _ | awaitButton _ => cases h; exact ⟨rfl, rfl, rfl, rfl, rfl⟩
  | vend _ => cases ph <;> cases h <;> exact ⟨rfl, rfl, rfl, rfl, rfl⟩
  | _ => cases h

/-- Settles O60, by what a reply's byte can do under the command's row. -/
theorem vendingReplyBytes : Obligations.VendingReplyBytes := by
  intro s inp b i n h hc hn value
  obtain ⟨hp, hs, hlen, hw, hi⟩ := replyLength_params hn s
  have hv : commandFailValue i = value := by cases i <;> rfl
  have hf : completesReply i b s = frameComplete s.p0 .fixed n (s.frameBytes ++ [b]) := by
    rw [completesReply, hp, hs, hlen]
  have hd : decodesReply i b s = decodeFrame s.p0 .fixed n (s.frameBytes ++ [b]) := by
    rw [decodesReply, hp, hs, hlen]
  rw [← hf, ← hd, ← hv]
  refine ⟨fun code hf hd => clockCycle_reply_error h hc hw hi hf hd, fun hf hfull => ?_,
    fun hf hfull => clockCycle_reply_more h hc hw hi hf hfull⟩
  have := clockCycle_reply_full h hc hw hi hf hfull
  rwa [hp] at this

/-! ## The swipe listener -/

theorem cardOk_iff (card : List Byte) :
    cardOk card = true ↔ 2 ≤ card.length ∧ card.length ≤ Config.pmax ∧ card.head? = some 0x3B ∧ card.getLast? = some 0x3F := by
  simp [cardOk, cardStart, cardEnd, and_assoc]

theorem load_head? (m : Memory) {n : Nat} (h : 0 < n) : (m.load n).head? = some (m.read 0) := by
  rw [List.head?_eq_getElem?, List.getElem?_eq_getElem (by simpa using h), load_getElem]

theorem load_getLast? (m : Memory) {n : Nat} (h : 0 < n) : (m.load n).getLast? = some (m.read (n - 1)) := by
  rw [List.getLast?_eq_getElem?, load_length, List.getElem?_eq_getElem (by simp; omega), load_getElem]

/-- The buffer holds a card, byte by byte (43_stripe.md R237). -/
theorem cardOk_frameBytes (s : State) :
    cardOk s.frameBytes = true ↔ 2 ≤ s.flen.toNat ∧ s.flen.toNat ≤ Config.pmax ∧ s.fbuf.read 0 = 0x3B
      ∧ s.fbuf.read (s.flen.toNat - 1) = 0x3F := by
  rw [cardOk_iff, frameBytes_length]
  refine and_congr_right fun h2 => ?_
  unfold State.frameBytes
  rw [load_head? _ (by omega), load_getLast? _ (by omega), Option.some_inj, Option.some_inj]

section

variable {inp : Inputs} {b : Byte} {s : State} (h : bringsByte inp b s) (hc : s.command = some .awaitSwipe)

include h

/-- A card ends the listener, and the cycle's tick is not counted. -/
theorem clockCycle_swipe_card (hwf : s.pbufRx.wf = true) {card : List Byte} (hok : cardOk card = true)
    (e : rxByte b (begun inp s) = (finish (some .awaitSwipe) .ok .noError 0 (some card) (received inp b s), true)) :
    ∃ t, clockCycle inp s = .next t ∧ Finishes .ok .noError 0 .repliedOk (some card) (received inp b s) t := by
  obtain ⟨-, hlen, -, -⟩ := (cardOk_iff card).mp hok
  exact ⟨_, clockCycle_received h e, finish_some _ _ _ _ _ _ (hlen.trans_lt depths_lt.1) hwf⟩

include hc

/-- A buffer that is no card is discarded, and the cycle's tick is counted (43_stripe.md R238). -/
theorem clockCycle_swipe_discards (e : rxByte b (begun inp s) = (discarded inp b s, false)) :
    ∃ t, clockCycle inp s = .next t ∧ TickCounted inp.tick .awaitSwipe (discarded inp b s) t :=
  clockCycle_received_counts h e (received_busy h) hc rfl

/-- Any other byte is stored, and the cycle's tick is counted. -/
theorem clockCycle_swipe_more (e : rxByte b (begun inp s) = (received inp b s, false)) :
    ∃ t, clockCycle inp s = .next t ∧ TickCounted inp.tick .awaitSwipe (received inp b s) t :=
  clockCycle_received_counts h e (received_busy h) hc rfl

end

/-- Settles O47, by the branches of the listener on raw bytes. -/
theorem rawSwipe : Obligations.RawSwipe := by
  intro s inp b h hwf hc hraw
  have e := rxByte_swipe (inp := inp) (b := b) hc
  rw [if_neg (by simp [hraw])] at e
  split
  · next hand =>
    rw [← cardOk_frameBytes] at hand
    obtain ⟨hterm, hcard⟩ := hand
    exact clockCycle_swipe_card h hwf hcard (by rw [e, if_pos hterm, if_pos hcard])
  · next hno =>
    rw [← cardOk_frameBytes] at hno
    split
    · next hend =>
      refine clockCycle_swipe_discards h hc ?_
      by_cases hterm : b = s.p1.term
      · rw [e, if_pos hterm, if_neg (fun hcard => hno ⟨hterm, hcard⟩)]
      · rw [e, if_neg hterm, if_pos (hend.resolve_left hterm)]
    · next hend =>
      obtain ⟨hterm, hfull⟩ := not_or.mp hend
      exact clockCycle_swipe_more h hc (by rw [e, if_neg hterm, if_neg hfull])

/-- Settles O48, by the branches of the listener on framed data. -/
theorem framedSwipe : Obligations.FramedSwipe := by
  intro s inp b h hwf hc hframed
  have e := rxByte_swipe (inp := inp) (b := b) hc
  rw [if_pos hframed] at e
  dsimp only
  split
  · next hf =>
    rw [if_pos hf] at e
    split
    · next card hd =>
      rw [hd] at e
      dsimp only at e
      split
      · next hok =>
        rw [← cardOk_iff] at hok
        exact clockCycle_swipe_card h hwf hok (by rw [e, if_pos hok])
      · next hok =>
        rw [← cardOk_iff] at hok
        exact clockCycle_swipe_discards h hc (by rw [e, if_neg hok])
    · next code hd =>
      rw [hd] at e
      exact clockCycle_swipe_discards h hc e
  · next hf =>
    rw [if_neg hf] at e
    split
    · next hfull => exact clockCycle_swipe_discards h hc (by rw [e, if_pos hfull])
    · next hfull => exact clockCycle_swipe_more h hc (by rw [e, if_neg hfull])

end Sys2Proof.Proofs
end

section
/-! SUPPORT. The issue of the commands that run an exchange or listen: the checks of 41_exchange.md R164 in order, with nothing sent when one
fails, and the frame that starts when all pass (42_vending.md, 43_stripe.md). -/

namespace Sys2Proof.Proofs

open Sys2Proof.Machine Sys2Proof.Safety Sys2Proof.Laws

/-! ## The checks in order -/

/-- Check 2 of R164 comes first. -/
theorem firstFailure_profile {p : Profile} {rest : List (Bool × ErrCode)} (hv : p.valid = false) :
    firstFailure (checkProfile p :: rest) = some .badProfile := by
  simp [firstFailure, checkProfile, hv]

/-- Checks 3 and 4 of R164 answer the same code. -/
theorem firstFailure_argument {p : Profile} {bad : Bool} {s : State} {rest : List (Bool × ErrCode)} (hv : p.valid = true)
    (h : bad = true ∨ s.replyTimeout = 0) :
    firstFailure (checkProfile p :: (bad, .badArgument) :: checkTimeout s :: rest) = some .badArgument := by
  rcases h with h | h <;> simp [firstFailure, checkProfile, checkTimeout, hv, h]

/-- Past checks 2 to 4 those of the frame decide. -/
theorem firstFailure_checked {p : Profile} {bad : Bool} {s : State} {rest : List (Bool × ErrCode)} (hv : p.valid = true)
    (hb : bad = false) (ht : s.replyTimeout ≠ 0) :
    firstFailure (checkProfile p :: (bad, .badArgument) :: checkTimeout s :: rest) = firstFailure rest := by
  have ht' : (s.replyTimeout == 0) = false := beq_eq_false_iff_ne.mpr ht
  simp only [firstFailure, checkProfile, checkTimeout, hv, hb, ht', Bool.not_true, Bool.false_eq_true, if_false]

/-- A command without an argument to check goes as one whose argument is in order. -/
theorem firstFailure_no_argument (c : Bool × ErrCode) (code : ErrCode) (rest : List (Bool × ErrCode)) :
    firstFailure (c :: rest) = firstFailure (c :: (false, code) :: rest) := rfl

/-- A frame of a payload that is not empty passes its checks when Encode answers it. -/
theorem checkFrame_passes {p : Profile} {payload frame : List Byte} (h : encodeFrame p payload = .ok frame)
    (hp : payload ≠ []) : firstFailure (checkFrame p payload) = none :=
  (checkFrame_none p payload).mpr ⟨frame, h, encodeFrame_ne_nil h hp⟩

/-! ## The frame that starts -/

/-- A command whose checks all pass starts to send its frame (41_exchange.md R166). -/
theorem issue_starts {i : Instr} {checks : List (Bool × ErrCode)} {s : State} {frame : List Byte}
    (hc : firstFailure checks = none) (hwf : s.fbuf.wf = true)
    (hp : (commandParams i false (opened s)).payload.length ≤ Config.pmax)
    (he : encodeFrame (commandParams i false (opened s)).profile (commandParams i false (opened s)).payload = .ok frame) :
    StartsSending frame false (opened s) (issue i checks (startExchange i false) s) := by
  rw [issue_passes hc, startExchange, frameOf_ok he]
  exact sendFrame_starts frame false (opened s) ((encodeFrame_length_le he hp).trans_lt depths_lt.2) hwf

/-! ## The vending commands -/

/-- A payload of one letter lies within PMAX. -/
theorem singleton_length_le (c : Byte) : [c].length ≤ Config.pmax := Nat.le_trans (by simp) pmax_bounds.1

theorem checkSlot_passes {slot : Byte} (h : slot.toNat ≤ 7) : decide (7 < slot.toNat) = false :=
  decide_eq_false (Nat.not_lt.mpr h)

/-- Settles O49: the three commands send the same frame, once their own checks pass. -/
theorem inventoryQueryStarts : Obligations.InventoryQueryStarts := by
  intro s frame hwf hv ht he
  have hframe := checkFrame_passes he (List.cons_ne_nil _ _)
  refine ⟨⟨_, rfl, issue_starts ?_ hwf (singleton_length_le charS) he⟩,
    fun slot hslot => ⟨_, rfl, issue_starts ?_ hwf (singleton_length_le charS) he⟩,
    fun slot vendFrame hslot hvend => ⟨_, rfl, issue_starts ?_ hwf (singleton_length_le charS) he⟩⟩
  · exact (firstFailure_no_argument _ _ _).trans ((firstFailure_checked hv rfl ht).trans hframe)
  · exact (firstFailure_checked hv (checkSlot_passes hslot) ht).trans hframe
  · exact (firstFailure_checked hv (checkSlot_passes hslot) ht).trans
      ((firstFailure_append_none hframe).trans (checkFrame_passes hvend (List.cons_ne_nil _ _)))

theorem checkSecs_passes {secs : Byte} (h1 : 1 ≤ secs.toNat) (h60 : secs.toNat ≤ 60) :
    (secs == 0 || decide (60 < secs.toNat)) = false := by
  rw [Bool.or_eq_false_iff, beq_eq_false_iff_ne, decide_eq_false_iff_not]
  exact ⟨by rintro rfl; simp at h1, by omega⟩

/-- Settles O50, by the checks of AWAIT_BUTTON. -/
theorem awaitButtonStarts : Obligations.AwaitButtonStarts := fun _ _ _ hwf hv ht h1 h60 he =>
  ⟨_, rfl, issue_starts ((firstFailure_checked hv (checkSecs_passes h1 h60) ht).trans (checkFrame_passes he (List.cons_ne_nil _ _))) hwf
    (singleton_length_le charB) he⟩

/-- Of VEND's two frames the first that collides ends the command (41_exchange.md R164). -/
theorem checkFrames_collision {p : Profile} {first second : List Byte} (hne : first ≠ [])
    (h : encodeFrame p first = .error .termCollision ∨ encodeFrame p second = .error .termCollision) :
    firstFailure (checkFrame p first ++ checkFrame p second) = some .termCollision := by
  rcases encodeFrame_cases p first with ⟨frame, hf⟩ | hcol
  · rw [firstFailure_append_none (checkFrame_passes hf hne)]
    exact checkFrame_collision (h.resolve_left (by simp [hf]))
  · exact firstFailure_append_some (checkFrame_collision hcol)

/-- Settles O51, check by check. -/
theorem vendingChecksInOrder : Obligations.VendingChecksInOrder := by
  intro s slot secs
  refine ⟨fun hv => ⟨⟨_, rfl, issue_fails (firstFailure_profile hv)⟩, ⟨_, rfl, issue_fails (firstFailure_profile hv)⟩,
      ⟨_, rfl, issue_fails (firstFailure_profile hv)⟩, ⟨_, rfl, issue_fails (firstFailure_profile hv)⟩⟩,
    fun hv h => ?_, fun hv h => ?_, fun hv ht => ?_, fun hv ht he => ⟨?_, fun hslot => ?_⟩, fun hv h1 h60 ht he => ?_,
    fun hv hslot ht he => ?_⟩
  · have hc : decide (7 < slot.toNat) = true ∨ s.replyTimeout = 0 := h.imp_left decide_eq_true
    exact ⟨⟨_, rfl, issue_fails (firstFailure_argument hv hc)⟩, ⟨_, rfl, issue_fails (firstFailure_argument hv hc)⟩⟩
  · have hc : (secs == 0 || decide (60 < secs.toNat)) = true ∨ s.replyTimeout = 0 := by
      simpa only [Bool.or_eq_true, beq_iff_eq, decide_eq_true_eq, or_assoc] using h
    exact ⟨_, rfl, issue_fails (firstFailure_argument hv hc)⟩
  · exact ⟨_, rfl, issue_fails ((firstFailure_no_argument _ _ _).trans (firstFailure_argument hv (.inr ht)))⟩
  · exact ⟨_, rfl, issue_fails ((firstFailure_no_argument _ _ _).trans
      ((firstFailure_checked hv rfl ht).trans (checkFrame_collision he)))⟩
  · exact ⟨_, rfl, issue_fails ((firstFailure_checked hv (checkSlot_passes hslot) ht).trans (checkFrame_collision he))⟩
  · exact ⟨_, rfl, issue_fails ((firstFailure_checked hv (checkSecs_passes h1 h60) ht).trans (checkFrame_collision he))⟩
  · exact ⟨_, rfl, issue_fails ((firstFailure_checked hv (checkSlot_passes hslot) ht).trans
      (checkFrames_collision (List.cons_ne_nil _ _) he))⟩

/-! ## The stripe commands -/

theorem checkTemplate_fails {op arg : Byte} (h : Config.stripeTemplate op arg = none) :
    (Config.stripeTemplate op arg).isNone = true := by rw [h]; rfl

/-- A stripe command's issue, for whatever template is configured (43_stripe.md R230). -/
theorem fireAndForget_issue {i : Instr} {op arg : Byte} {s : State} (hwf : s.fbuf.wf = true)
    (hparams : ∀ t, commandParams i false t = stripeParams op arg t) (hvalue : commandFailValue i = 0) :
    StripeIssue op arg s (fireAndForget i op arg s) := by
  have fails {code : ErrCode} {checks : List (Bool × ErrCode)} {start : State → State} (h : firstFailure checks = some code) :
      Finishes .invalidArgument code 0 .idle none (opened s) (issue i checks start s) := hvalue ▸ issue_fails h
  unfold StripeIssue fireAndForget
  split
  · next hv => exact fails (firstFailure_profile hv)
  · next hv =>
    rw [Bool.not_eq_false] at hv
    split
    · next hnone => exact fails (firstFailure_argument hv (.inl (checkTemplate_fails hnone)))
    · next payload hsome =>
      have hpayload : templatePayload op arg = payload := by rw [templatePayload, hsome]; rfl
      split
      · next ht => exact fails (firstFailure_argument hv (.inr ht))
      · next ht =>
        have hchecked := firstFailure_checked (rest := checkFrame s.p1 payload) hv
          (show (Config.stripeTemplate op arg).isNone = false by rw [hsome]; rfl) ht
        rw [hpayload]
        split
        · next code he =>
          rw [encodeFrame_error _ _ _ he] at he
          exact fails (hchecked.trans (checkFrame_collision he))
        · next frame he =>
          split
          · next hnil =>
            subst hnil
            exact fails (hchecked.trans (checkFrame_empty he))
          · next hne =>
            refine issue_starts (hchecked.trans ((checkFrame_none _ _).mpr ⟨frame, he, hne⟩)) hwf ?_ ?_ <;> rw [hparams]
            · exact templatePayload_length_le op arg
            · exact (congrArg (encodeFrame s.p1) hpayload).trans he

/-- Settles O52: the four commands differ in their opcode alone. -/
theorem stripeCommandsIssue : Obligations.StripeCommandsIssue := fun _ _ hwf =>
  ⟨⟨_, rfl, fireAndForget_issue hwf (fun _ => rfl) rfl⟩, ⟨_, rfl, fireAndForget_issue hwf (fun _ => rfl) rfl⟩,
    ⟨_, rfl, fireAndForget_issue hwf (fun _ => rfl) rfl⟩, ⟨_, rfl, fireAndForget_issue hwf (fun _ => rfl) rfl⟩⟩

/-- Settles O53: the three checks of AWAIT_SWIPE in order, then the listener's start. -/
theorem awaitSwipeListens : Obligations.AwaitSwipeListens := by
  intro s
  refine ⟨fun hv hterm ht => ?_, fun h => ⟨_, rfl, issue_fails ?_⟩, fun hv hterm ht => ⟨_, rfl, issue_fails ?_⟩⟩
  · have ht' : (s.replyTimeout == 0) = false := beq_eq_false_iff_ne.mpr ht
    refine congrArg Host.Outcome.next (issue_passes ?_)
    simp only [firstFailure, checkProfile, checkTimeout, hv, hterm, ht', Bool.not_true, Bool.false_eq_true, if_false]
  · cases hv : s.p1.valid with
    | false => exact firstFailure_profile hv
    | true =>
      have hterm : s.p1.termEn = false := h.resolve_left (by simp [hv])
      simp [firstFailure, checkProfile, hv, hterm]
  · simp [firstFailure, checkProfile, checkTimeout, hv, hterm, ht]

/-! ## EXCHANGE -/

/-- Check 3 of R164 for EXCHANGE, as its row lists it. -/
theorem badShape_iff (p : Profile) (shape : Shape) (len : Byte) :
    badShape p shape len = true ↔ (shape = .sentinel ∧ p.termEn = false) ∨ (shape = .fixed ∧ Config.pmax < len.toNat) := by
  cases shape <;> simp [badShape]

theorem badShape_passes {p : Profile} {shape : Shape} {len : Byte} (hs : shape = .sentinel → p.termEn = true)
    (hf : shape = .fixed → len.toNat ≤ Config.pmax) : badShape p shape len = false := by
  rw [Bool.eq_false_iff, ne_eq, badShape_iff]
  rintro (⟨h, hterm⟩ | ⟨h, hlen⟩)
  · exact Bool.noConfusion ((hs h).symm.trans hterm)
  · exact absurd (hf h) (Nat.not_le.mpr hlen)

/-- The reply of zero wire length that check 5 of R164 refuses (40_codec.md R132). -/
theorem zeroReply_iff (p : Profile) (shape : Shape) (len : Byte) :
    zeroReply p shape len = true ↔ shape = .fixed ∧ p.termEn = false ∧ p.header.length + len.toNat + p.ckLen = 0 := by
  cases shape <;> simp [zeroReply, Profile.expLen]

/-- Settles O54: every check of R164 passes, and the payload is PBUF_TX[0..TXLEN). -/
theorem exchangeStarts : Obligations.ExchangeStarts := by
  intro s psel shape len frame hwf hv ht htx hs hf he hne hz
  have hzero : zeroReply (s.profile psel) shape len = false := by
    rw [Bool.eq_false_iff, ne_eq, zeroReply_iff]
    rintro ⟨hfixed, hterm, hlen⟩
    exact absurd (hz hfixed hterm) (by omega)
  refine ⟨_, rfl, issue_starts ?_ hwf ?_ ?_⟩
  · refine (firstFailure_checked hv (badShape_passes hs hf) ht).trans ?_
    refine (firstFailure_append_none ((checkFrame_none _ _).mpr ⟨frame, he, hne⟩)).trans ?_
    simp [firstFailure, hzero]
  · exact (txPayload_length s).trans_le htx
  · cases psel <;> exact he

/-- Settles O55, check by check. -/
theorem exchangeChecksInOrder : Obligations.ExchangeChecksInOrder := by
  intro s psel shape len
  refine ⟨_, rfl, fun hv => issue_fails (firstFailure_profile hv), fun hv h => issue_fails (firstFailure_argument hv ?_),
    fun hv hs hf ht => ?_⟩
  · rwa [badShape_iff, or_assoc]
  · have hchecked {rest : List (Bool × ErrCode)} := firstFailure_checked (rest := rest) hv (badShape_passes hs hf) ht
    refine ⟨fun he => issue_fails (hchecked.trans (firstFailure_append_some (checkFrame_collision he))),
      fun he => issue_fails (hchecked.trans (firstFailure_append_some (checkFrame_empty he))),
      fun frame he hfixed hterm hlen => issue_fails (hchecked.trans ?_)⟩
    have hzero : zeroReply (s.profile psel) shape len = true := (zeroReply_iff _ _ _).mpr ⟨hfixed, hterm, hlen⟩
    by_cases hnil : frame = []
    · subst hnil
      exact firstFailure_append_some (checkFrame_empty he)
    · refine (firstFailure_append_none ((checkFrame_none _ _).mpr ⟨frame, he, hnil⟩)).trans ?_
      simp [firstFailure, hzero]

end Sys2Proof.Proofs
end

section
/-! SUPPORT. Phase 1 of a vend: the one transition that sets PHASE is a decoded inventory reply with stock in the slot (42_vending.md
R212, R214). -/

namespace Sys2Proof.Proofs

open Sys2Proof.Machine Sys2Proof.Safety Sys2Proof.Laws

/-! ## The engine -/

/-- With the byte b the reply is complete, it decodes under the inventory query's row, and its bitmap holds stock in the slot of the
vend in CMD. -/
def FindsStock (b : Byte) (s : State) : Prop :=
  ∃ (slot : Byte) (payload : List Byte) (bitmap : Byte), s.command = some (.vend slot)
    ∧ decodeFrame s.p0 .fixed 3 (s.frameBytes ++ [b]) = .ok payload ∧ invBitmap payload = some bitmap
    ∧ stocked bitmap slot = true

theorem txPart_phase (inp : Inputs) (s : State) : (txPart inp s).1.phase = s.phase := by
  rcases txPart_cases inp s with ⟨-, e⟩ | ⟨-, -, -, e⟩ | ⟨-, -, -, e⟩ | ⟨-, -, e⟩ <;> rw [e]
  · rfl
  · show (txComplete _).phase = s.phase
    unfold txComplete
    split <;> rfl

theorem countTick_phase (s : State) : (countTick s).phase = s.phase := by
  rcases countTick_cases s with ⟨-, e⟩ | ⟨-, e⟩ <;> rw [e]
  rcases expire_cases { s with dlCnt := 0 } with ⟨-, e⟩ | ⟨-, e⟩ | ⟨-, -, e⟩ | ⟨-, -, e⟩ <;> rw [e] <;> rfl

theorem dropRx_phase (rx : Option Byte) (s : State) : (dropRx rx s).phase = s.phase := by cases rx <;> rfl

/-- A byte of a reply keeps PHASE, but for the one that shows a vend its slot in stock: it starts the second exchange. -/
theorem replyByte_phase (b : Byte) (s : State) :
    (replyByte b s).1.phase = s.phase
      ∨ FindsStock b s ∧ ∃ slot, replyByte b s = (startExchange (.vend slot) true (appendByte b s), true) := by
  rcases replyByte_cases b s with ⟨payload, hd, e⟩ | ⟨code, e, -⟩ | ⟨-, e⟩ <;> rw [e]
  · rcases interpret_cases s.command payload (appendByte b s) with
      ⟨value, e⟩ | ⟨value, -, e⟩ | ⟨slot, -, -, e⟩ | ⟨slot, bitmap, hc, hp, hbitmap, hstock, e⟩ <;> rw [e]
    · exact .inl rfl
    · exact .inl rfl
    · exact .inl rfl
    · rw [hc, show s.phase = false from hp] at hd
      exact .inr ⟨⟨slot, payload, bitmap, hc, hd, hbitmap, hstock⟩, slot, rfl⟩
  · exact .inl rfl
  · exact .inl rfl

theorem swipeByte_phase (b : Byte) (s : State) : (swipeByte b s).1.phase = s.phase := by
  rcases swipeByte_cases b s with ⟨card, -, e⟩ | e | ⟨-, e⟩ <;> rw [e] <;> rfl

/-- The engine's part keeps PHASE, but for the byte that starts a vend's second exchange (41_exchange.md R160, R179). -/
theorem enginePart_phase (inp : Inputs) (s : State) :
    (enginePart inp s).1.phase = s.phase
      ∨ s.xstate = .awaitingReply ∧ ∃ b slot, inp.rx = some b ∧ FindsStock b s
          ∧ enginePart inp s = (startExchange (.vend slot) true (appendByte b s), true) := by
  unfold enginePart
  split
  case h_1 => exact .inl ((dropRx_phase _ _).trans (txPart_phase _ _))
  case h_2 hx =>
    cases hrx : inp.rx with
    | none => exact .inl rfl
    | some b =>
      dsimp only
      unfold rxByte
      cases waitMode s.command with
      | reply => exact (replyByte_phase b s).imp_right fun ⟨hstock, slot, e⟩ => ⟨hx, b, slot, rfl, hstock, e⟩
      | settle => exact .inl rfl
      | swipe => exact .inl (swipeByte_phase b s)
  all_goals exact .inl (dropRx_phase _ _)

/-- So does the engine's whole cycle: where the second exchange starts, no tick is counted, and SFC sends. -/
theorem engineCycle_phase (inp : Inputs) (s : State) :
    (engineCycle inp s).phase = s.phase
      ∨ s.xstate = .awaitingReply ∧ (∃ b, inp.rx = some b ∧ FindsStock b s) ∧ (engineCycle inp s).xstate = .commandSent := by
  unfold engineCycle
  rcases enginePart_phase inp s with hp | ⟨hx, b, slot, hrx, hstock, e⟩
  · left
    split
    · exact (countTick_phase _).trans hp
    · exact hp
  · rw [e, Bool.not_true, Bool.and_false, if_neg Bool.false_ne_true]
    exact .inr ⟨hx, ⟨b, hrx, hstock⟩, rfl⟩

/-! ## The whole cycle -/

/-- The CTRL clears touch nothing that a reply's bytes are judged by. -/
theorem findsStock_ctrlClears {b : Byte} {bus : BusAccess} {inp : Inputs} {s : State}
    (h : FindsStock b (ctrlClears bus (begun inp s))) : FindsStock b s := by
  obtain ⟨keepDone, keepFlags, e⟩ := ctrlClears_cases bus (begun inp s)
  rw [e] at h
  exact h

/-- Every command is issued in phase 0 (41_exchange.md R163). -/
theorem exec_phase {i : Instr} {s t : State} (h : exec i s = .next t) : t.phase = false := by
  cases exec_issued h <;> rfl

/-- An access to a machine that is not busy keeps PHASE, or the command it issues or refuses clears it. -/
theorem hostAccess_idle_phase {bus : BusAccess} {s t : State} (h : hostAccess false bus s = .next t) :
    t.phase = s.phase ∨ t.phase = false := by
  rcases hostAccess_cases h with rfl | rfl | rfl | ⟨-, rfl⟩ | ⟨v, rfl⟩ | ⟨n, -, rfl⟩ | ⟨i, b, -, rfl⟩ | ⟨-, n, -, rfl⟩
    | ⟨-, i, b, -, rfl⟩ | ⟨-, x, rfl⟩ | ⟨-, v, i, -, he⟩ | ⟨-, v, e, -, rfl⟩
  case inr.inr.inr.inr.inl => rw [ctrlLengths_eq]; exact .inl rfl
  case inr.inr.inr.inr.inr.inr.inr.inr.inr.inr.inl => exact .inr (exec_phase he)
  case inr.inr.inr.inr.inr.inr.inr.inr.inr.inr.inr => exact .inr rfl
  all_goals exact .inl rfl

/-- A machine that is not busy does not enter phase 1. -/
theorem clockCycle_idle_phase {inp : Inputs} {s t : State} (hrst : inp.rst = false) (hb : s.busy = false)
    (h : clockCycle inp s = .next t) : t.phase = s.phase ∨ t.phase = false := by
  rw [clockCycle_of_not_reset hrst, hb] at h
  have hp := progressOf_ctrlClears inp.bus (begun inp s)
  rw [engineCycle_not_busy _ _ ((busy_of_progressOf hp).trans hb)] at h
  have hph : (dropRx inp.rx (ctrlClears inp.bus (begun inp s))).phase = s.phase :=
    (dropRx_phase _ _).trans (congrArg (·.2.1) hp)
  exact hph ▸ hostAccess_idle_phase h

/-- A busy machine keeps PHASE, or its byte finds stock for the vend and SFC sends again. -/
theorem clockCycle_busy_phase {inp : Inputs} {s t : State} (hrst : inp.rst = false) (hb : s.busy = true)
    (h : clockCycle inp s = .next t) :
    t.phase = s.phase
      ∨ s.xstate = .awaitingReply ∧ (∃ b, inp.rx = some b ∧ FindsStock b s) ∧ t.xstate = .commandSent := by
  rw [clockCycle_of_not_reset hrst, hb] at h
  have ht := progressOf_hostAccess_busy h
  have hs := progressOf_ctrlClears inp.bus (begun inp s)
  simp only [progressOf, Prod.mk.injEq] at ht hs
  obtain ⟨htx, htp, -⟩ := ht
  obtain ⟨hsx, hsp, -⟩ := hs
  rcases engineCycle_phase inp (ctrlClears inp.bus (begun inp s)) with hp | ⟨hx, ⟨b, hrx, hstock⟩, hsent⟩
  · exact .inl (htp.trans (hp.trans hsp))
  · exact .inr ⟨hsx.symm.trans hx, ⟨b, hrx, findsStock_ctrlClears hstock⟩, htx.trans hsent⟩

/-- Settles O33: reset and an idle machine leave phase 0 as it is, and a busy one leaves it only with stock in the slot. -/
theorem vendOnlyWhenStocked : Obligations.VendOnlyWhenStocked := by
  intro s t inp h hs ht
  cases hrst : inp.rst with
  | true =>
    obtain ⟨-, rfl⟩ | ⟨hno, -⟩ := clockCycle_cases h
    · cases ht
    · exact nomatch hno.symm.trans hrst
  | false =>
    cases hb : s.busy with
    | false => rcases clockCycle_idle_phase hrst hb h with e | e <;> simp [e, hs] at ht
    | true =>
      rcases clockCycle_busy_phase hrst hb h with e | ⟨hx, ⟨b, hrx, slot, payload, bitmap, hc, hd, hbitmap, hstock⟩, hsent⟩
      · simp [e, hs] at ht
      · exact ⟨slot, b, payload, bitmap, hc, hx, hrx, hd, hbitmap, hstock, hsent⟩

end Sys2Proof.Proofs
end

section
/-! SUPPORT. The vending commands' replies: the inventory bitmap (42_vending.md R201), and what a decoded reply does to each command
(R204, R207, R209, R213, R214). -/

namespace Sys2Proof.Proofs

open Sys2Proof.Machine Sys2Proof.Safety Sys2Proof.Laws

/-! ## The inventory bitmap -/

/-- The ASCII hex digits of a nibble, either case. -/
def hexDigits (v : Byte) : List Byte := if v.toNat < 10 then [0x30 + v] else [0x37 + v, 0x57 + v]

/-- A hex digit has a value below 16, and it is one of that value's digits. -/
theorem mem_hexDigits_of_hexVal {b v : Byte} (h : hexVal b = some v) : v.toNat < 16 ∧ b ∈ hexDigits v := by
  unfold hexVal at h
  unfold hexDigits
  split at h
  · cases h
    rw [if_pos (by bv_omega), List.mem_singleton]
    exact ⟨by bv_omega, by bv_omega⟩
  · split at h
    · cases h
      rw [if_neg (by bv_omega), List.mem_pair]
      exact ⟨by bv_omega, .inl (by bv_omega)⟩
    · split at h
      · cases h
        rw [if_neg (by bv_omega), List.mem_pair]
        exact ⟨by bv_omega, .inr (by bv_omega)⟩
      · cases h

/-- A nibble is the value of each of its digits. -/
theorem hexVal_of_mem_hexDigits {b v : Byte} (hv : v.toNat < 16) (h : b ∈ hexDigits v) : hexVal b = some v := by
  unfold hexDigits at h
  unfold hexVal
  split at h
  · rw [List.mem_singleton] at h
    subst h
    rw [if_pos (by bv_omega)]
    exact congrArg some (by bv_omega)
  · rw [List.mem_pair] at h
    rcases h with rfl | rfl
    · rw [if_neg (by bv_omega), if_pos (by bv_omega)]
      exact congrArg some (by bv_omega)
    · rw [if_neg (by bv_omega), if_neg (by bv_omega), if_pos (by bv_omega)]
      exact congrArg some (by bv_omega)

/-- A bitmap is read off the echo and two hex digits (42_vending.md R201). -/
theorem invBitmap_eq_some_iff {payload : List Byte} {bitmap : Byte} :
    invBitmap payload = some bitmap ↔ ∃ hi lo h l, payload = [charS, hi, lo] ∧ hexVal hi = some h ∧ hexVal lo = some l
      ∧ bitmap = h * 16 + l := by
  constructor
  · intro hmap
    unfold invBitmap at hmap
    split at hmap
    · next e hi lo =>
      split at hmap
      · next he =>
        split at hmap
        · next h l hh hl =>
          exact ⟨hi, lo, h, l, by rw [he], hh, hl, (Option.some.inj hmap).symm⟩
        · cases hmap
      · cases hmap
    · cases hmap
  · rintro ⟨hi, lo, h, l, rfl, hh, hl, rfl⟩
    simp only [invBitmap, hh, hl, if_true]

/-- Settles O42, digit by digit. -/
theorem hexPairBitmap : Obligations.HexPairBitmap := by
  refine ⟨fun h l hh hl hi hhi lo hlo => invBitmap_eq_some_iff.mpr ⟨hi, lo, h, l, rfl, hexVal_of_mem_hexDigits hh hhi,
    hexVal_of_mem_hexDigits hl hlo, rfl⟩, fun payload bitmap hmap => ?_⟩
  obtain ⟨hi, lo, h, l, hpayload, hh, hl, hbitmap⟩ := invBitmap_eq_some_iff.mp hmap
  obtain ⟨hh16, hhi⟩ := mem_hexDigits_of_hexVal hh
  obtain ⟨hl16, hlo⟩ := mem_hexDigits_of_hexVal hl
  exact ⟨h, l, hi, lo, hh16, hl16, hpayload, hbitmap, hhi, hlo⟩

/-! ## What each command makes of its payload -/

section

variable {payload : List Byte} {bitmap : Byte} {s : State}

/-- An inventory reply without a bitmap ends each of the commands that ask for it (42_vending.md R204, R207, R214). -/
theorem interpret_no_bitmap {i : Instr} (hn : replyLength i s.phase = some 3) (h : invBitmap payload = none) :
    interpret (some i) payload s = finish (some i) .malformed .unexpectedReply (commandFailValue i) none s := by
  cases i with
  | queryInv => simp only [interpret, replyQueryInv, h, commandFailValue]
  | hasSoda slot => simp only [interpret, replyHasSoda, h, commandFailValue]
  | awaitButton secs => simp [replyLength] at hn
  | vend slot =>
    cases hp : s.phase with
    | false => simp only [interpret, hp, Bool.false_eq_true, if_false, replyVendInventory, h, commandFailValue]
    | true => simp [replyLength, hp] at hn
  | _ => cases hn

theorem interpret_queryInv (h : invBitmap payload = some bitmap) :
    interpret (some .queryInv) payload s = finish (some .queryInv) .ok .noError bitmap (some payload) s := by
  simp only [interpret, replyQueryInv, h]

theorem interpret_hasSoda (slot : Byte) (h : invBitmap payload = some bitmap) :
    interpret (some (.hasSoda slot)) payload s
      = finish (some (.hasSoda slot)) .ok .noError (if stocked bitmap slot then 1 else 0) (some payload) s := by
  simp only [interpret, replyHasSoda, h]

theorem interpret_vend_stocked {slot : Byte} (hp : s.phase = false) (h : invBitmap payload = some bitmap)
    (hstock : stocked bitmap slot = true) :
    interpret (some (.vend slot)) payload s = startExchange (.vend slot) true s := by
  simp only [interpret, hp, Bool.false_eq_true, if_false, replyVendInventory, h, hstock, if_true]

theorem interpret_vend_empty {slot : Byte} (hp : s.phase = false) (h : invBitmap payload = some bitmap)
    (hempty : stocked bitmap slot = false) :
    interpret (some (.vend slot)) payload s = finish (some (.vend slot)) .ok .noError 2 (some payload) s := by
  simp only [interpret, hp, Bool.false_eq_true, if_false, replyVendInventory, h, hempty]

theorem interpret_vend_confirmed (slot : Byte) (hp : s.phase = true) (hy : payload = [charY]) :
    interpret (some (.vend slot)) payload s = finish (some (.vend slot)) .ok .noError 1 (some payload) s := by
  simp only [interpret, hp, if_true, replyVendConfirm, hy]

theorem interpret_vend_declined (slot : Byte) (hp : s.phase = true) (hy : payload ≠ [charY]) :
    interpret (some (.vend slot)) payload s = finish (some (.vend slot)) .negative .noError 3 (some payload) s := by
  simp only [interpret, hp, if_true, replyVendConfirm, hy, if_false]

end

/-- The vend frame starts to be sent, once Encode answers it (41_exchange.md R166). -/
theorem startExchange_vend_starts {slot : Byte} {s : State} {frame : List Byte} (hwf : s.fbuf.wf = true)
    (he : encodeFrame s.p0 (vendPayload slot s) = .ok frame) :
    StartsSending frame true s (startExchange (.vend slot) true s) := by
  have hlen : (vendPayload slot s).length ≤ Config.pmax := Nat.le_trans (by simp [vendPayload]) pmax_bounds.1
  have e : startExchange (.vend slot) true s = sendFrame frame true s := congrArg (sendFrame · true s) (frameOf_ok he)
  rw [e]
  exact sendFrame_starts frame true s ((encodeFrame_length_le he hlen).trans_lt depths_lt.2) hwf

/-! ## The cycle that completes a vending reply -/

/-- A vending reply that decodes is interpreted (41_exchange.md R167, R181). -/
theorem clockCycle_vending_payload {inp : Inputs} {b : Byte} {s : State} {i : Instr} {n : Nat} {payload : List Byte}
    (h : bringsByte inp b s) (hc : s.command = some i) (hn : replyLength i s.phase = some n)
    (hf : frameComplete s.p0 .fixed n (s.frameBytes ++ [b]) = true)
    (hd : decodeFrame s.p0 .fixed n (s.frameBytes ++ [b]) = .ok payload) :
    clockCycle inp s = .next (interpret (some i) payload (received inp b s)) := by
  obtain ⟨hp, hs, hlen, hw, -⟩ := replyLength_params hn s
  refine clockCycle_reply_payload h hc hw ?_ ?_
  · rwa [completesReply, hp, hs, hlen]
  · rwa [decodesReply, hp, hs, hlen]

/-- So an inventory reply without a bitmap ends the command MALFORMED / UNEXPECTED_REPLY. -/
theorem clockCycle_no_bitmap {inp : Inputs} {b : Byte} {s : State} {i : Instr} {payload : List Byte} (h : bringsByte inp b s)
    (hc : s.command = some i) (hn : replyLength i s.phase = some 3)
    (hf : frameComplete s.p0 .fixed 3 (s.frameBytes ++ [b]) = true)
    (hd : decodeFrame s.p0 .fixed 3 (s.frameBytes ++ [b]) = .ok payload) (hmap : invBitmap payload = none) :
    ∃ t, clockCycle inp s = .next t
      ∧ Finishes .malformed .unexpectedReply (commandFailValue i) .repliedError none (received inp b s) t := by
  obtain ⟨-, -, -, -, hi⟩ := replyLength_params hn s
  have e := interpret_no_bitmap (s := received inp b s) hn hmap
  exact ⟨_, (clockCycle_vending_payload h hc hn hf hd).trans (congrArg _ e), finishes_of_not_codec hi _ _ _ _⟩

/-- Settles O41, by whether the payload has a bitmap. -/
theorem inventoryReply : Obligations.InventoryReply := by
  intro s inp b payload h hwf hf hd
  have hlen := decodeFrame_length hd
  cases hmap : invBitmap payload with
  | none => exact ⟨fun hc => clockCycle_no_bitmap h hc rfl hf hd hmap, fun slot hc => clockCycle_no_bitmap h hc rfl hf hd hmap⟩
  | some bitmap =>
    refine ⟨fun hc => ⟨_, clockCycle_vending_payload h hc rfl hf hd, ?_⟩,
      fun slot hc => ⟨_, clockCycle_vending_payload h hc rfl hf hd, ?_⟩⟩
    · rw [interpret_queryInv hmap]
      exact finish_some _ _ _ _ _ _ hlen hwf
    · rw [interpret_hasSoda slot hmap]
      exact finish_some _ _ _ _ _ _ hlen hwf

/-- Settles O43: a FIXED reply of one byte is that byte. -/
theorem buttonReply : Obligations.ButtonReply := by
  intro s inp b secs payload h hwf hc hf hd
  obtain ⟨button, rfl⟩ := List.length_eq_one_iff.mp ((decodeFrame_ok hd).2 rfl)
  exact ⟨_, button, clockCycle_vending_payload h hc rfl hf hd, rfl, finish_some _ _ _ _ _ _ (decodeFrame_length hd) hwf⟩

/-- Settles O44, by whether the payload has a bitmap and the bitmap stock in the slot. -/
theorem vendInventoryReply : Obligations.VendInventoryReply := by
  intro s inp b slot payload frame h hwf hfbuf hc hp hf hd he
  have hn : replyLength (.vend slot) s.phase = some 3 := by rw [hp]; rfl
  cases hmap : invBitmap payload with
  | none => exact clockCycle_no_bitmap h hc hn hf hd hmap
  | some bitmap =>
    refine ⟨_, clockCycle_vending_payload h hc hn hf hd, ?_⟩
    dsimp only
    split
    · next hstock =>
      rw [interpret_vend_stocked (s := received inp b s) hp hmap hstock]
      exact startExchange_vend_starts (wf_write _ _ _ hfbuf) he
    · next hempty =>
      rw [interpret_vend_empty (s := received inp b s) hp hmap (Bool.eq_false_of_not_eq_true hempty)]
      exact finish_some _ _ _ _ _ _ (decodeFrame_length hd) hwf

/-- Settles O45, by whether the byte is the letter Y. -/
theorem vendConfirmReply : Obligations.VendConfirmReply := by
  intro s inp b slot payload h hwf hc hp hf hd
  have hlen := decodeFrame_length hd
  have hn : replyLength (.vend slot) s.phase = some 1 := by rw [hp]; rfl
  refine ⟨_, clockCycle_vending_payload h hc hn hf hd, ?_⟩
  split
  · next hy =>
    rw [interpret_vend_confirmed (s := received inp b s) slot hp hy]
    exact finish_some _ _ _ _ _ _ hlen hwf
  · next hy =>
    rw [interpret_vend_declined (s := received inp b s) slot hp hy]
    exact finish_some _ _ _ _ _ _ hlen hwf

end Sys2Proof.Proofs
end

section
/-! SUPPORT. What RESULT holds: every finish reports a class with one of its error codes, and a class that its command can finish with
(60_exceptions.md R251, R252). -/

namespace Sys2Proof.Proofs

open Sys2Proof.Machine Sys2Proof.Safety Sys2Proof.Laws

/-! ## The classes of a command -/

theorem canFinish_ok (i : Instr) : canFinish (some i) .ok = true := by
  cases i with
  | exchange psel shape len => cases shape <;> rfl
  | _ => rfl

/-- A command that waits for a reply can see a bad one. -/
theorem canFinish_malformed {i : Instr} (hi : isCodec i = false) (hw : commandWaitMode i = .reply) :
    canFinish (some i) .malformed = true := by
  cases i with
  | exchange psel shape len =>
    cases shape with
    | noReply => cases hw
    | _ => rfl
  | readerEnable _ | readerDisable _ | setLed _ | setTracks _ | awaitSwipe => cases hw
  | encode _ | cksum _ => cases hi
  | _ => rfl

/-- A command whose wait is no settle delay can wait in vain. -/
theorem canFinish_timedOut {i : Instr} (hi : isCodec i = false) (hw : commandWaitMode i ≠ .settle) :
    canFinish (some i) .timedOut = true := by
  cases i with
  | exchange psel shape len =>
    cases shape with
    | noReply => exact absurd rfl hw
    | _ => rfl
  | readerEnable _ | readerDisable _ | setLed _ | setTracks _ => exact absurd rfl hw
  | encode _ | decode _ _ _ | cksum _ => cases hi
  | _ => rfl

/-- A command that sends can fail to. -/
theorem canFinish_ioFailure {i : Instr} (hi : isCodec i = false) (hs : i ≠ .awaitSwipe) :
    canFinish (some i) .ioFailure = true := by
  cases i with
  | exchange psel shape len => cases shape <;> rfl
  | awaitSwipe => exact absurd rfl hs
  | encode _ | decode _ _ _ | cksum _ => cases hi
  | _ => rfl

/-! ## The engine -/

/-- How the engine ends the command in CMD: the class and the error code that the finish reports (41_exchange.md R174 to R181,
43_stripe.md R237). -/
inductive Ending (s : State) : ResultClass → ErrCode → Prop where
  | completed : Ending s .ok .noError
  | turnedDown (slot : Byte) (hc : s.command = some (.vend slot)) : Ending s .negative .noError
  | badReply (code : ErrCode) (hw : waitMode s.command = .reply) (h : classAllows .malformed code = true) :
      Ending s .malformed code
  | noReply (hw : waitMode s.command ≠ .settle) : Ending s .timedOut .noError
  | notSent (code : ErrCode) (hx : s.xstate = .commandSent) (h : classAllows .ioFailure code = true) : Ending s .ioFailure code

/-- What the engine leaves in RESULT: what it held, or, of a busy machine, the outcome of the command. -/
inductive EngineResult (s : State) : ResultClass → ErrCode → Prop where
  | kept : EngineResult s s.resClass s.resErr
  | ended (hb : s.busy = true) {cls : ResultClass} {err : ErrCode} (h : Ending s cls err) : EngineResult s cls err

section

variable {s : State} {cls : ResultClass} {err : ErrCode}

/-- Every ending has a code of its class (60_exceptions.md R251). -/
theorem Ending.codeFits (h : Ending s cls err) : classAllows cls err = true := by
  cases h with
  | badReply _ _ h => exact h
  | notSent _ _ h => exact h
  | _ => rfl

/-- A running command ends with one of its classes; the listener does not send (60_exceptions.md R252). -/
theorem Ending.classFits {i : Instr} (h : Ending s cls err) (hc : s.command = some i) (hr : ready i s = true)
    (hs : s.xstate = .commandSent → s.command ≠ some .awaitSwipe) :
    canFinish s.command cls = true := by
  have hi := isCodec_of_ready hr
  cases h with
  | completed => rw [hc]; exact canFinish_ok i
  | turnedDown slot hv => rw [hv]; rfl
  | badReply _ hw => rw [hc] at hw ⊢; exact canFinish_malformed hi hw
  | noReply hw => rw [hc] at hw ⊢; exact canFinish_timedOut hi hw
  | notSent _ hx =>
    have hne := hs hx
    rw [hc] at hne ⊢
    exact canFinish_ioFailure hi fun e => hne (congrArg some e)

/-- Of the state only CMD and STATE matter to how its command ends. -/
theorem Ending.congr {u : State} (h : Ending u cls err) (hc : u.command = s.command) (hx : u.xstate = s.xstate) :
    Ending s cls err := by
  cases h with
  | completed => exact .completed
  | turnedDown slot hv => exact .turnedDown slot (hc ▸ hv)
  | badReply _ hw h => exact .badReply _ (hc ▸ hw) h
  | noReply hw => exact .noReply (hc ▸ hw)
  | notSent _ hs h => exact .notSent _ (hx ▸ hs) h

/-- Two parts of a cycle leave what the second one does, where the first one keeps CMD and STATE. -/
theorem EngineResult.trans {u : State} (h : EngineResult s u.resClass u.resErr) (hc : u.command = s.command)
    (hx : u.xstate = s.xstate) (h' : EngineResult u cls err) : EngineResult s cls err := by
  cases h' with
  | kept => exact h
  | ended hb he => exact .ended ((busy_iff s).mpr (hx ▸ (busy_iff u).mp hb)) (he.congr hc hx)

/-- So the engine leaves a code that comes with the class, where it found one. -/
theorem EngineResult.codeFits (h : EngineResult s cls err) (hs : classAllows s.resClass s.resErr = true) :
    classAllows cls err = true := by
  cases h with
  | kept => exact hs
  | ended _ he => exact he.codeFits

/-- In a run the engine leaves a class of the command in CMD, where it found one. -/
theorem EngineResult.classFits (h : EngineResult s cls err) (hinv : RunInv s) (hs : canFinish s.command s.resClass = true) :
    canFinish s.command cls = true := by
  cases h with
  | kept => exact hs
  | ended hb he =>
    obtain ⟨i, hc, hr⟩ := hinv.running hb
    exact he.classFits hc hr fun hx => (hinv.sending hx).2

end

theorem txPart_result {s : State} (hx : s.xstate = .commandSent) (inp : Inputs) :
    EngineResult s (txPart inp s).1.resClass (txPart inp s).1.resErr := by
  have hb := (busy_iff s).mpr (.inl hx)
  rcases txPart_cases inp s with ⟨-, e⟩ | ⟨-, -, -, e⟩ | ⟨-, -, -, e⟩ | ⟨-, -, e⟩ <;> rw [e]
  · exact .ended hb (.notSent _ hx rfl)
  · unfold txComplete
    dsimp only
    split
    · exact .ended hb .completed
    · exact .kept
  · exact .kept
  · exact .kept

/-- A decoded reply ends its command, or a vend sends its second frame with RESULT as it was (41_exchange.md R181). -/
theorem interpret_result {s : State} (hb : s.busy = true) (hw : waitMode s.command = .reply) (payload : List Byte) :
    EngineResult s (interpret s.command payload s).resClass (interpret s.command payload s).resErr := by
  rcases interpret_cases s.command payload s with
    ⟨value, e⟩ | ⟨value, -, e⟩ | ⟨slot, hc, -, e⟩ | ⟨slot, bitmap, -, -, -, -, e⟩ <;> rw [e]
  · exact .ended hb .completed
  · exact .ended hb (.badReply _ hw rfl)
  · exact .ended hb (.turnedDown slot hc)
  · exact .kept

theorem rxByte_result {s : State} (hx : s.xstate = .awaitingReply) (b : Byte) :
    EngineResult s (rxByte b s).1.resClass (rxByte b s).1.resErr := by
  have hb := (busy_iff s).mpr (.inr hx)
  unfold rxByte
  split
  next hw =>
    rcases replyByte_cases b s with ⟨payload, -, e⟩ | ⟨code, e, hcode, -⟩ | ⟨-, e⟩ <;> rw [e]
    · exact .trans (u := appendByte b s) .kept rfl rfl (interpret_result (s := appendByte b s) hb hw payload)
    · exact .ended hb (.badReply code hw hcode)
    · exact .kept
  next => exact .kept
  next =>
    rcases swipeByte_cases b s with ⟨card, -, e⟩ | e | ⟨-, e⟩ <;> rw [e]
    · exact .ended hb .completed
    · exact .kept
    · exact .kept

theorem dropRx_result (rx : Option Byte) (s : State) :
    (dropRx rx s).resClass = s.resClass ∧ (dropRx rx s).resErr = s.resErr := by cases rx <;> exact ⟨rfl, rfl⟩

theorem enginePart_result (inp : Inputs) (s : State) :
    EngineResult s (enginePart inp s).1.resClass (enginePart inp s).1.resErr := by
  unfold enginePart
  split
  next hx =>
    obtain ⟨hcls, herr⟩ := dropRx_result inp.rx (txPart inp s).1
    rw [hcls, herr]
    exact txPart_result hx inp
  next hx =>
    cases inp.rx with
    | none => exact .kept
    | some b => exact rxByte_result hx b
  all_goals
    obtain ⟨hcls, herr⟩ := dropRx_result inp.rx s
    rw [hcls, herr]
    exact .kept

/-- A tick counts down, or the deadline ends the command by its state and wait mode (41_exchange.md R178). -/
theorem countTick_result (s : State) : EngineResult s (countTick s).resClass (countTick s).resErr := by
  rcases countTick_cases s with ⟨-, e⟩ | ⟨-, e⟩ <;> rw [e]
  · exact .kept
  · rcases expire_cases { s with dlCnt := 0 } with ⟨-, e⟩ | ⟨hx, e⟩ | ⟨hx, -, e⟩ | ⟨hx, hw, e⟩ <;> rw [e]
    · exact .kept
    · exact .ended ((busy_iff s).mpr (.inl hx)) (.notSent _ hx rfl)
    · exact .ended ((busy_iff s).mpr (.inr hx)) .completed
    · exact .ended ((busy_iff s).mpr (.inr hx)) (.noReply hw)

theorem engineCycle_result (inp : Inputs) (s : State) :
    EngineResult s (engineCycle inp s).resClass (engineCycle inp s).resErr := by
  unfold engineCycle
  split
  next hcount =>
    simp only [Bool.and_eq_true, Bool.not_eq_true'] at hcount
    obtain ⟨-, hfired⟩ := hcount
    exact (enginePart_result inp s).trans (congrArg commandOf (congrArg Prod.fst (configOf_enginePart inp s)))
      (enginePart_flag hfired) (countTick_result _)
  next => exact enginePart_result inp s

/-! ## The issue of a command -/

/-- What RESULT holds suits the command c: the code comes with the class (60_exceptions.md R251), and c can finish with it (R252). -/
structure ResultFits (c : Option Instr) (s : State) : Prop where
  code : classAllows s.resClass s.resErr = true
  cls : canFinish c s.resClass = true

/-- RESULT holds nothing while its command runs. -/
theorem resultFits_clear {c : Option Instr} {s : State} (hcls : s.resClass = .noResult) (herr : s.resErr = .noError) :
    ResultFits c s := by
  refine ⟨by rw [hcls, herr]; rfl, ?_⟩
  rw [hcls]
  cases c with
  | none => rfl
  | some i =>
    cases i with
    | exchange psel shape len => cases shape <;> rfl
    | _ => rfl

/-- A failing check ends a command with its own code; so an issue fits where its start does. -/
theorem resultFits_issue {i : Instr} {checks : List (Bool × ErrCode)} {start : State → State} {s : State}
    (hcodes : checks.all (fun c => classAllows .invalidArgument c.2) = true) (hcls : canFinish (some i) .invalidArgument = true)
    (hstart : ResultFits (some i) (start (opened s))) : ResultFits (some i) (issue i checks start s) := by
  rcases issue_cases i checks start s with ⟨code, hfail, e⟩ | ⟨-, e⟩ <;> rw [e]
  · exact ⟨List.all_eq_true.mp hcodes _ (firstFailure_some checks code hfail), hcls⟩
  · exact hstart

/-- Issuing a command starts it, or ends it with one of its classes (41_exchange.md R164, 40_codec.md R141 to R143). -/
theorem resultFits_exec {i : Instr} {s t : State} (h : exec i s = .next t) : ResultFits (some i) t := by
  cases i with
  | cksum psel => cases h; exact ⟨rfl, rfl⟩
  | encode psel =>
    cases h
    refine resultFits_issue rfl rfl ?_
    unfold encodeToFbuf
    split
    next => exact ⟨rfl, rfl⟩
    next code hcode => rw [encodeFrame_error _ _ _ hcode]; exact ⟨rfl, rfl⟩
  | decode psel shape len =>
    cases h
    refine resultFits_issue rfl rfl ?_
    unfold decodeFromFbuf
    split
    next => exact ⟨rfl, rfl⟩
    next code hcode => exact ⟨decodeFrame_error hcode, rfl⟩
  | exchange psel shape len =>
    cases h
    exact resultFits_issue rfl (by cases shape <;> rfl) (resultFits_clear rfl rfl)
  | _ => cases h; exact resultFits_issue rfl rfl (resultFits_clear rfl rfl)

/-! ## The whole cycle -/

/-- The host's access keeps CMD and RESULT, or the command it issues or refuses leaves a RESULT that fits it. -/
theorem hostAccess_result {busy : Bool} {bus : BusAccess} {s t : State} (h : hostAccess busy bus s = .next t) :
    (t.command = s.command ∧ t.resClass = s.resClass ∧ t.resErr = s.resErr) ∨ ResultFits t.command t := by
  rcases hostAccess_cases h with rfl | rfl | rfl | ⟨-, rfl⟩ | ⟨v, rfl⟩ | ⟨n, -, rfl⟩ | ⟨i, b, -, rfl⟩ | ⟨-, n, -, rfl⟩
    | ⟨-, i, b, -, rfl⟩ | ⟨-, x, rfl⟩ | ⟨-, v, i, hv, he⟩ | ⟨-, v, e, hv, rfl⟩
  case inr.inr.inr.inr.inl => rw [ctrlLengths_eq]; exact .inl ⟨rfl, rfl, rfl⟩
  case inr.inr.inr.inr.inr.inr.inr.inr.inr.inr.inl =>
    have hc : t.command = some i := by simp [State.command, exec_cmd he, commandOf, hv]
    exact .inr (hc ▸ resultFits_exec he)
  case inr.inr.inr.inr.inr.inr.inr.inr.inr.inr.inr =>
    refine .inr ⟨rfl, ?_⟩
    simp [State.command, opened, commandOf, hv, canFinish]
  all_goals exact .inl ⟨rfl, rfl, rfl⟩

/-- A cycle leaves in RESULT what the engine does, of the same command, or what fits the command it ends with. -/
theorem clockCycle_result {inp : Inputs} {s t : State} (h : clockCycle inp s = .next t) :
    (t.command = s.command ∧ EngineResult s t.resClass t.resErr) ∨ ResultFits t.command t := by
  rcases clockCycle_cases h with ⟨-, rfl⟩ | ⟨-, ha⟩
  · exact .inr (resultFits_clear rfl rfl)
  · refine (hostAccess_result ha).imp_left fun ⟨hc, hcls, herr⟩ => ?_
    have hbegun : EngineResult s (ctrlClears inp.bus (begun inp s)).resClass (ctrlClears inp.bus (begun inp s)).resErr := by
      obtain ⟨keepDone, keepFlags, e⟩ := ctrlClears_cases inp.bus (begun inp s)
      rw [e]; exact .kept
    have hcmd : (ctrlClears inp.bus (begun inp s)).command = s.command :=
      congrArg commandOf (congrArg Prod.fst (configOf_ctrlClears inp.bus (begun inp s)))
    have hx : (ctrlClears inp.bus (begun inp s)).xstate = s.xstate :=
      congrArg Prod.fst (progressOf_ctrlClears inp.bus (begun inp s))
    rw [hc, hcls, herr]
    exact ⟨(congrArg commandOf (congrArg Prod.fst (configOf_engineCycle inp _))).trans hcmd,
      hbegun.trans hcmd hx (engineCycle_result inp _)⟩

/-- Settles O31: RESULT is kept, or the engine ends the command with a code of its class, or an issue does. -/
theorem errorCodeFitsClass : Obligations.ErrorCodeFitsClass := by
  refine ⟨rfl, fun s t hs h => ?_⟩
  rcases clockCycle_result h with ⟨-, hr⟩ | hfits
  · exact hr.codeFits hs
  · exact hfits.code

/-- Settles O32: RESULT is kept, or the command that runs ends with one of its classes, or the one that is issued does. -/
theorem classFitsCommand : Obligations.ClassFitsCommand := by
  refine ⟨rfl, fun s t hinv hs h => ?_⟩
  rcases clockCycle_result h with ⟨hc, hr⟩ | hfits
  · exact hc ▸ hr.classFits hinv hs
  · exact hfits.cls

end Sys2Proof.Proofs
end
